-- ==== Sys2Proof/Word.lean ====
section
/-! DEFINITION. The unit's two word types (spec 00 R12, 30 R80) and their zero extension (00 R13). -/

namespace Sys2Proof

/-- A byte: 8 bits, an unsigned integer 0..255 (00 R12). -/
abbrev Byte := BitVec 8

/-- A command word or a response value: 32 bits, unsigned (30 R80, R83). -/
abbrev Word := BitVec 32

/-- `zext_32(v)` of 00 R13. -/
def zext32 {n : Nat} (v : BitVec n) : Word := v.setWidth 32

/-- A non-negative integer as a response value (the integers that reach it are below `2^32`: 45 R224, 46 R253). -/
def natWord (n : Nat) : Word := BitVec.ofNat 32 n

end Sys2Proof
end

