-- ==== Sys2Proof/Config.lean ====
section
/-! DEFINITION. The configuration of a unit: the parameters that the spec leaves open with a default (spec 00 R10, R11;
92 D5, D6) and the sizes it fixes (00 R9). A unit's configuration does not change while it runs (10 R53); the defaults
are `Sys2Proof.Machine.unitConfig` in Machine/Tables.lean. -/

namespace Sys2Proof

/-- A Code128 code set (43 R166). -/
inductive CodeSet
  | a | b | c
deriving DecidableEq, Repr

/-- The configuration fields of 00 R10 and R11, in the order of those rules. -/
structure Config where
  /-- `RS_NMAX`: the largest number of EC codewords (00 R10). -/
  rsNMax : Nat
  /-- `MASKPRED`: mask id, row, column (46 R235, R236). -/
  maskPred : BitVec 3 → Nat → Nat → Bool
  /-- `PEN_TMPL_A`: 11 cells, first cell of the window first, `true` is dark (46 R244). -/
  penTmplA : List Bool
  /-- `PEN_TMPL_B` (46 R244). -/
  penTmplB : List Bool
  /-- `C128_START` (43 R167). -/
  c128Start : CodeSet → Byte
  /-- `C128_SWITCH`, by the target set (43 R167). -/
  c128Switch : CodeSet → Byte
  /-- `C128_DEFAULT_SET` (43 R168). -/
  c128DefaultSet : CodeSet
  /-- `EAN13_PARITY`, by the first digit (44 R196). -/
  ean13Parity : BitVec 4 → BitVec 6
  /-- `UPCE_PARITY`, by the check digit (44 R198). -/
  upceParity : BitVec 4 → BitVec 6
  /-- `UPCE_EXPAND`: number system and six core digits to 11 digits (44 R192). -/
  upceExpand : Byte → List Byte → List Byte
  /-- `ALPHA39`: the accepted bytes (45 R219). -/
  alpha39 : Byte → Bool
  /-- `ALPHACB`: the accepted bytes (45 R221). -/
  alphaCB : Byte → Bool
  /-- `ALPHA93`: the value of a byte, where it has one (45 R207). -/
  alpha93 : Byte → Option Byte

/-- What a configuration must satisfy: the range of `RS_NMAX` (00 R10), the template length (00 R11, 46 R244), Code93
values inside the alphabet (45 R207: values 0..46), Code128 start and switch values that `C128.CHK` accepts (43 R176:
at most 105), and an expansion of 11 digits (44 R192). -/
structure Config.wf (c : Config) : Prop where
  rsNMax_range : 1 ≤ c.rsNMax ∧ c.rsNMax ≤ 254
  penTmplA_length : c.penTmplA.length = 11
  penTmplB_length : c.penTmplB.length = 11
  c128Start_le : ∀ set, (c.c128Start set).toNat ≤ 105
  c128Switch_le : ∀ set, (c.c128Switch set).toNat ≤ 105
  alpha93_le : ∀ b v, c.alpha93 b = some v → v.toNat ≤ 46
  upceExpand_length : ∀ ns core, core.length = 6 → (c.upceExpand ns core).length = 11

/-- `DBUF_SIZE` (00 R9). -/
def dbufSize : Nat := 4096

/-- `VBUF_SIZE` (00 R9). -/
def vbufSize : Nat := 4096

/-- `MAT_MAX`, the side of the matrix memory (00 R9, 10 R40). -/
def matMax : Nat := 177

end Sys2Proof
end

