-- ==== Sys2Proof/Syntax.lean ====
section
/-! DEFINITION. The commands, one constructor per row of spec/opcode_table.json (30 R86), with operands of exactly the
bits that 30 R85 and R87 give them; the failure codes (60 R321), the responses (30 R83) and the host's inputs (30 R80,
70 R350). -/

namespace Sys2Proof

/-- The 45 commands of 30 R86. -/
inductive Instr
  -- control (47 R266 to R268)
  | nop
  | srst
  | csrRd (idx : BitVec 12)
  -- data buffer (47 R270 to R272)
  | dClr
  | dPush (b : Byte)
  | dRd (idx : BitVec 12)
  -- value buffer (47 R274 to R276)
  | vClr
  | vPush (b : Byte)
  | vRd (idx : BitVec 12)
  -- GF(256) (40 R115, R117, R118)
  | gfMul (a b : Byte)
  | gfExp (i : Byte)
  | gfLog (a : Byte)
  -- Reed-Solomon (41 R132 to R139)
  | rsGen (n : Byte)
  | rsClr
  | rsFeed (d : Byte)
  | rsEnc (base len : BitVec 12)
  | rsRd (idx : BitVec 12)
  | rsGrd (idx : BitVec 12)
  -- BCH (42 R152, R155)
  | bchFmt (d5 : BitVec 5)
  | bchVer (v : BitVec 6)
  -- Code128, UPC/EAN, Code93 (43 R170, R176; 44 R187, R191, R196, R198; 45 R208, R210)
  | c128Seq (base len : BitVec 12)
  | c128Chk
  | m10Chk
  | upceExp (base len : BitVec 12)
  | c93Chk
  | parEan13 (d : BitVec 4)
  | parUpce (d : BitVec 4)
  | c93Seq (base len : BitVec 12)
  -- the nine validators (45 R214 to R222)
  | valC128 (base len : BitVec 12)
  | valEan13 (base len : BitVec 12)
  | valEan8 (base len : BitVec 12)
  | valUpca (base len : BitVec 12)
  | valUpce (base len : BitVec 12)
  | valC39 (base len : BitVec 12)
  | valItf (base len : BitVec 12)
  | valCbar (base len : BitVec 12)
  | valC93 (base len : BitVec 12)
  -- matrix, mask, penalty, best mask (46 R231 to R233, R237, R238, R247, R250, R251)
  | matInit (v : BitVec 6)
  | matWr (row col : Byte) (z : BitVec 2)
  | matRd (row col : Byte)
  | maskBit (id : BitVec 3) (row col : Byte)
  | maskApply (id : BitVec 3)
  | penScore
  | bestClr
  | bestUpd (id : BitVec 3)
deriving DecidableEq, Repr

/-- The nine failure codes of 60 R321. -/
inductive FailCode
  | eOpcode | eField | eArg | eRange | eState | eShape | eChar | eEsc | eFull
deriving DecidableEq, Repr

/-- A response: `OK(v)` or `FAIL(code)` (30 R83). -/
inductive Response
  | ok (v : Word)
  | fail (c : FailCode)
deriving DecidableEq, Repr

/-- What the host does to the unit: it presents a command word (30 R80), or it asserts the hardware reset, which
abandons the command in flight if there is one (70 R350). -/
inductive HostInput
  | command (w : Word)
  | hardReset (abandoned : Option Word)
deriving DecidableEq, Repr

end Sys2Proof
end

