-- ==== Sys2Proof/WellFormed.lean ====
section
/-! DEFINITION. Well-formed commands: every operand lies in its command's domain (spec 30 R89). An ill-formed command
still decodes; it responds `FAIL(E_ARG)` (60 R321). The must-be-zero bits of 30 R85 and R87 are no matter of a term:
the operands' types have only the legal bits, and the decoder answers for the rest. -/

namespace Sys2Proof

/-- The operand domains of 30 R89, one per command that has one (60 R321, row `E_ARG`). -/
def Instr.wellFormed (c : Config) : Instr → Bool
  | .csrRd idx => idx.toNat ≤ 13
  | .gfExp i => i.toNat ≤ 254
  | .gfLog a => a ≠ 0
  | .rsGen n => 1 ≤ n.toNat ∧ n.toNat ≤ c.rsNMax
  | .bchVer v => 7 ≤ v.toNat ∧ v.toNat ≤ 40
  | .parEan13 d => d.toNat ≤ 9
  | .parUpce d => d.toNat ≤ 9
  | .matInit v => 1 ≤ v.toNat ∧ v.toNat ≤ 40
  | .nop | .srst | .dClr | .dPush _ | .dRd _ | .vClr | .vPush _ | .vRd _ | .gfMul _ _ | .rsClr | .rsFeed _
  | .rsEnc _ _ | .rsRd _ | .rsGrd _ | .bchFmt _ | .c128Seq _ _ | .c128Chk | .m10Chk | .upceExp _ _ | .c93Chk
  | .c93Seq _ _ | .valC128 _ _ | .valEan13 _ _ | .valEan8 _ _ | .valUpca _ _ | .valUpce _ _ | .valC39 _ _
  | .valItf _ _ | .valCbar _ _ | .valC93 _ _ | .matWr _ _ _ | .matRd _ _ | .maskBit _ _ _ | .maskApply _
  | .penScore | .bestClr | .bestUpd _ => true

end Sys2Proof
end

