-- ==== Sys2Proof/Decode.lean ====
section
/-! DEFINITION. The command encoding (spec 30): the opcode map with its must-be-zero bits, the decoder (total on all
2^32 words, 30 R91, R92) and the encoder (30 R90). -/

namespace Sys2Proof

/-- `cmd[31:24]`, the opcode byte of every format (30 R85). -/
def opOf (w : Word) : Byte := w.extractLsb' 24 8

/-- `cmd[23:16]`: `x` of format BBB (30 R85). -/
def byte2 (w : Word) : Byte := w.extractLsb' 16 8

/-- `cmd[15:8]`: `a` of format BB, `y` of format BBB (30 R85). -/
def byte1 (w : Word) : Byte := w.extractLsb' 8 8

/-- `cmd[7:0]`: `b` of formats B and BB, `z` of format BBB (30 R85). -/
def byte0 (w : Word) : Byte := w.extractLsb' 0 8

/-- `cmd[23:12]`: `base` of format AL (30 R85). -/
def baseOf (w : Word) : BitVec 12 := w.extractLsb' 12 12

/-- `cmd[11:0]`: `len` of format AL, `idx` of format I (30 R85). -/
def low12 (w : Word) : BitVec 12 := w.extractLsb' 0 12

/-- One row of the opcode map: the opcode byte, the must-be-zero bits of its format and of its narrowed operands
(30 R85, R87), and the command that the word's fields make. -/
structure Row where
  op : Byte
  mustBeZero : Word
  build : Word → Instr

/-- Rows of 30 R86: control, data and value buffers (47). -/
def rowsControl : List Row :=
  [ ⟨0x00, 0xFFFFFF, fun _ => .nop⟩,
    ⟨0x01, 0xFFFFFF, fun _ => .srst⟩,
    ⟨0x02, 0xFFF000, fun w => .csrRd (low12 w)⟩,
    ⟨0x10, 0xFFFFFF, fun _ => .dClr⟩,
    ⟨0x11, 0xFFFF00, fun w => .dPush (byte0 w)⟩,
    ⟨0x12, 0xFFF000, fun w => .dRd (low12 w)⟩,
    ⟨0x14, 0xFFFFFF, fun _ => .vClr⟩,
    ⟨0x15, 0xFFFF00, fun w => .vPush (byte0 w)⟩,
    ⟨0x16, 0xFFF000, fun w => .vRd (low12 w)⟩ ]

/-- Rows of 30 R86: GF(256), Reed-Solomon, BCH (40, 41, 42). -/
def rowsField : List Row :=
  [ ⟨0x20, 0xFF0000, fun w => .gfMul (byte1 w) (byte0 w)⟩,
    ⟨0x21, 0xFFFF00, fun w => .gfExp (byte0 w)⟩,
    ⟨0x22, 0xFFFF00, fun w => .gfLog (byte0 w)⟩,
    ⟨0x28, 0xFFFF00, fun w => .rsGen (byte0 w)⟩,
    ⟨0x29, 0xFFFFFF, fun _ => .rsClr⟩,
    ⟨0x2A, 0xFFFF00, fun w => .rsFeed (byte0 w)⟩,
    ⟨0x2B, 0x000000, fun w => .rsEnc (baseOf w) (low12 w)⟩,
    ⟨0x2C, 0xFFF000, fun w => .rsRd (low12 w)⟩,
    ⟨0x2D, 0xFFF000, fun w => .rsGrd (low12 w)⟩,
    ⟨0x30, 0xFFFFE0, fun w => .bchFmt (w.extractLsb' 0 5)⟩,
    ⟨0x31, 0xFFFFC0, fun w => .bchVer (w.extractLsb' 0 6)⟩ ]

/-- Rows of 30 R86: the sequencers, checksums and parity selectors (43, 44, 45). -/
def rowsBarcode : List Row :=
  [ ⟨0x40, 0x000000, fun w => .c128Seq (baseOf w) (low12 w)⟩,
    ⟨0x41, 0xFFFFFF, fun _ => .c128Chk⟩,
    ⟨0x42, 0xFFFFFF, fun _ => .m10Chk⟩,
    ⟨0x43, 0x000000, fun w => .upceExp (baseOf w) (low12 w)⟩,
    ⟨0x44, 0xFFFFFF, fun _ => .c93Chk⟩,
    ⟨0x45, 0xFFFFF0, fun w => .parEan13 (w.extractLsb' 0 4)⟩,
    ⟨0x46, 0xFFFFF0, fun w => .parUpce (w.extractLsb' 0 4)⟩,
    ⟨0x47, 0x000000, fun w => .c93Seq (baseOf w) (low12 w)⟩ ]

/-- Rows of 30 R86: the nine validators (45). -/
def rowsValidate : List Row :=
  [ ⟨0x48, 0x000000, fun w => .valC128 (baseOf w) (low12 w)⟩,
    ⟨0x49, 0x000000, fun w => .valEan13 (baseOf w) (low12 w)⟩,
    ⟨0x4A, 0x000000, fun w => .valEan8 (baseOf w) (low12 w)⟩,
    ⟨0x4B, 0x000000, fun w => .valUpca (baseOf w) (low12 w)⟩,
    ⟨0x4C, 0x000000, fun w => .valUpce (baseOf w) (low12 w)⟩,
    ⟨0x4D, 0x000000, fun w => .valC39 (baseOf w) (low12 w)⟩,
    ⟨0x4E, 0x000000, fun w => .valItf (baseOf w) (low12 w)⟩,
    ⟨0x4F, 0x000000, fun w => .valCbar (baseOf w) (low12 w)⟩,
    ⟨0x50, 0x000000, fun w => .valC93 (baseOf w) (low12 w)⟩ ]

/-- Rows of 30 R86: matrix, mask, penalty, best mask (46). -/
def rowsMatrix : List Row :=
  [ ⟨0x60, 0xFFFFC0, fun w => .matInit (w.extractLsb' 0 6)⟩,
    ⟨0x61, 0x0000FC, fun w => .matWr (byte2 w) (byte1 w) (w.extractLsb' 0 2)⟩,
    ⟨0x62, 0xFF0000, fun w => .matRd (byte1 w) (byte0 w)⟩,
    ⟨0x63, 0xF80000, fun w => .maskBit (w.extractLsb' 16 3) (byte1 w) (byte0 w)⟩,
    ⟨0x64, 0xFFFFF8, fun w => .maskApply (w.extractLsb' 0 3)⟩,
    ⟨0x65, 0xFFFFFF, fun _ => .penScore⟩,
    ⟨0x66, 0xFFFFFF, fun _ => .bestClr⟩,
    ⟨0x67, 0xFFFFF8, fun w => .bestUpd (w.extractLsb' 0 3)⟩ ]

/-- The opcode map: 45 rows (30 R86). -/
def opcodeMap : List Row := rowsControl ++ rowsField ++ rowsBarcode ++ rowsValidate ++ rowsMatrix

/-- The row of an opcode byte, if it has one (30 R91 step 1). -/
def rowOf (op : Byte) : Option Row := opcodeMap.find? (fun r => r.op == op)

/-- The decoder, in the order of 30 R91: the opcode byte first, then the must-be-zero bits. -/
def decode (w : Word) : Except FailCode Instr :=
  match rowOf (opOf w) with
  | none => .error .eOpcode
  | some r => if w &&& r.mustBeZero = 0 then .ok (r.build w) else .error .eField

/-- Format Z: `op[31:24] 0[23:0]` (30 R85, R90). -/
def encZ (op : Byte) : Word := op ++ 0#24

/-- Format B: `op[31:24] 0[23:8] b[7:0]` (30 R85, R90). -/
def encB (op b : Byte) : Word := op ++ 0#16 ++ b

/-- Format BB: `op[31:24] 0[23:16] a[15:8] b[7:0]` (30 R85, R90). -/
def encBB (op a b : Byte) : Word := op ++ 0#8 ++ a ++ b

/-- Format BBB: `op[31:24] x[23:16] y[15:8] z[7:0]` (30 R85, R90). -/
def encBBB (op x y z : Byte) : Word := op ++ x ++ y ++ z

/-- Format AL: `op[31:24] base[23:12] len[11:0]` (30 R85, R90). -/
def encAL (op : Byte) (base len : BitVec 12) : Word := op ++ base ++ len

/-- Format I: `op[31:24] 0[23:12] idx[11:0]` (30 R85, R90). -/
def encI (op : Byte) (idx : BitVec 12) : Word := op ++ 0#12 ++ idx

/-- The word of a command (30 R90). -/
def encode : Instr → Word
  | .nop => encZ 0x00
  | .srst => encZ 0x01
  | .csrRd idx => encI 0x02 idx
  | .dClr => encZ 0x10
  | .dPush b => encB 0x11 b
  | .dRd idx => encI 0x12 idx
  | .vClr => encZ 0x14
  | .vPush b => encB 0x15 b
  | .vRd idx => encI 0x16 idx
  | .gfMul a b => encBB 0x20 a b
  | .gfExp i => encB 0x21 i
  | .gfLog a => encB 0x22 a
  | .rsGen n => encB 0x28 n
  | .rsClr => encZ 0x29
  | .rsFeed d => encB 0x2A d
  | .rsEnc base len => encAL 0x2B base len
  | .rsRd idx => encI 0x2C idx
  | .rsGrd idx => encI 0x2D idx
  | .bchFmt d5 => encB 0x30 (d5.setWidth 8)
  | .bchVer v => encB 0x31 (v.setWidth 8)
  | .c128Seq base len => encAL 0x40 base len
  | .c128Chk => encZ 0x41
  | .m10Chk => encZ 0x42
  | .upceExp base len => encAL 0x43 base len
  | .c93Chk => encZ 0x44
  | .parEan13 d => encB 0x45 (d.setWidth 8)
  | .parUpce d => encB 0x46 (d.setWidth 8)
  | .c93Seq base len => encAL 0x47 base len
  | .valC128 base len => encAL 0x48 base len
  | .valEan13 base len => encAL 0x49 base len
  | .valEan8 base len => encAL 0x4A base len
  | .valUpca base len => encAL 0x4B base len
  | .valUpce base len => encAL 0x4C base len
  | .valC39 base len => encAL 0x4D base len
  | .valItf base len => encAL 0x4E base len
  | .valCbar base len => encAL 0x4F base len
  | .valC93 base len => encAL 0x50 base len
  | .matInit v => encB 0x60 (v.setWidth 8)
  | .matWr row col z => encBBB 0x61 row col (z.setWidth 8)
  | .matRd row col => encBB 0x62 row col
  | .maskBit id row col => encBBB 0x63 (id.setWidth 8) row col
  | .maskApply id => encB 0x64 (id.setWidth 8)
  | .penScore => encZ 0x65
  | .bestClr => encZ 0x66
  | .bestUpd id => encB 0x67 (id.setWidth 8)

/-- The command that the decoder reads from a word whose low `nbits` bits are `w` and whose other bits are 0. Every
command is one 32-bit word that crosses the port whole (30 R85, 20 R62), so there is no byte order to choose. -/
def decodeTableWord (nbits w : Nat) : Option Instr :=
  match decode (BitVec.ofNat 32 (w % 2 ^ nbits)) with
  | .ok i => some i
  | .error _ => none

end Sys2Proof
end

