-- ==== Sys2Proof/Machine/Memory.lean ====
section
/-! DEFINITION. The unit's array memories (spec 20 R60): finite lists of (index, element) pairs in one canonical form,
keys strictly rising and no entry equal to what an unlisted index reads as, so that equal contents are equal data. -/

namespace Sys2Proof.Machine

/-- A memory of elements of `α`, by index. With `α` a byte this is a list of `Host.Cell`. -/
abbrev Memory (α : Type) := List (Nat × α)

variable {α : Type}

/-- What index `i` holds; `blank` is what an unlisted index reads as (log 5). -/
def readMem (blank : α) : Memory α → Nat → α
  | [], _ => blank
  | (k, v) :: rest, i => if k = i then v else if i < k then blank else readMem blank rest i

/-- Store `v` at index `i`, keeping the canonical form. -/
def writeMem [DecidableEq α] (blank : α) : Memory α → Nat → α → Memory α
  | [], i, v => if v = blank then [] else [(i, v)]
  | (k, u) :: rest, i, v =>
    if i < k then (if v = blank then (k, u) :: rest else (i, v) :: (k, u) :: rest)
    else if k = i then (if v = blank then rest else (i, v) :: rest)
    else (k, u) :: writeMem blank rest i v

/-- Store the sequence `vs` at `base`, `base + 1`, ... in ascending order (00 R14). -/
def writeSeq [DecidableEq α] (blank : α) (m : Memory α) (base : Nat) : List α → Memory α
  | [] => m
  | v :: vs => writeSeq blank (writeMem blank m base v) (base + 1) vs

/-- The `n` elements at `base`, `base + 1`, ... in ascending order (00 R14). -/
def readSeq (blank : α) (m : Memory α) (base n : Nat) : List α :=
  (List.range n).map fun k => readMem blank m (base + k)

/-- The canonical form. -/
abbrev Memory.wf (blank : α) (m : Memory α) : Prop :=
  m.Pairwise (fun x y => x.1 < y.1) ∧ ∀ x ∈ m, x.2 ≠ blank

/-- Every listed index exists: it is below `size`. -/
abbrev Memory.within (size : Nat) (m : Memory α) : Prop :=
  ∀ x ∈ m, x.1 < size

end Sys2Proof.Machine
end

