-- ==== Sys2Proof/Machine/State.lean ====
section
/-! DEFINITION. The machine's state as plain data, its reasons to stop, and the state after reset. -/

namespace Sys2Proof.Machine

/-- The colour field of a matrix cell (10 R40). -/
inductive CellSt
  | unset | light | dark
deriving DecidableEq, Repr

/-- A matrix cell: colour and reserved bit (10 R40). -/
structure MatCell where
  st : CellSt
  rsv : Bool
deriving DecidableEq, Repr

/-- Why the unit stops with a fault: never. The spec gives no trap and no stuck state (60 R320, R324; 93 Part 1
"Nothing in the unit is stuck"), so there is no constructor, nobody raises one, and that is safe (log 17). -/
inductive Fault
deriving DecidableEq, Repr

/-- Why the model refuses an instruction. -/
inductive Refusal
  /-- The instruction of that mnemonic has no meaning in `exec`. Raised by `exec`'s arms alone; no arm raises it now,
  for every command has its meaning. Safe: the machine stops where the hardware would go on. -/
  | notModelled (mnemonic : String)
deriving DecidableEq, Repr

/-- What an index of a byte memory that nothing has written reads as (log 5: the spec calls it unspecified). -/
def blankByte : Byte := 0

/-- What a matrix cell that nothing has written reads as (log 5); also what `MAT.INIT` writes (46 R231). -/
def blankCell : MatCell := ⟨.unset, false⟩

/-- The architectural state of 10 R20, in the order of its table, then the model's own two fields. -/
structure State where
  /-- `EXP` (10 R24): place `i` holds `EXP[i]`. -/
  expRom : List Byte
  /-- `LOG` (10 R25): place `k` holds `LOG[k + 1]`. -/
  logRom : List Byte
  /-- `DBUF` (10 R27). -/
  dbuf : List Host.Cell
  /-- `DLEN` (10 R27). -/
  dlen : BitVec 13
  /-- `VBUF` (10 R28). -/
  vbuf : List Host.Cell
  /-- `VLEN` (10 R28). -/
  vlen : BitVec 13
  /-- `RS_N` (10 R29). -/
  rsN : BitVec 8
  /-- `RS_GEN` (10 R30). -/
  rsGen : List Host.Cell
  /-- `RS_REM` (10 R31). -/
  rsRem : List Host.Cell
  /-- `MAT_VER` (10 R41). -/
  matVer : BitVec 6
  /-- `MAT` (10 R40): cell `(r, c)` under the key `177*r + c` (log 15). -/
  mat : List (Nat × MatCell)
  /-- `PEN_A` (10 R42). -/
  penA : BitVec 32
  /-- `PEN_B` (10 R42). -/
  penB : BitVec 32
  /-- `PEN_C` (10 R42). -/
  penC : BitVec 32
  /-- `PEN_D` (10 R42). -/
  penD : BitVec 32
  /-- `PEN_TOTAL` (10 R42). -/
  penTotal : BitVec 32
  /-- `PEN_VALID` (10 R42). -/
  penValid : Bool
  /-- `BEST_ID` (10 R43). -/
  bestId : BitVec 3
  /-- `BEST_PEN` (10 R43). -/
  bestPen : BitVec 32
  /-- `BEST_VALID` (10 R43). -/
  bestValid : Bool
  /-- The model's own: the host inputs not taken yet, in order (log 1). -/
  inputs : List HostInput
  /-- The model's own: the responses given, newest first (log 2). -/
  responses : List Response
deriving DecidableEq, Repr

/-- The machine right after reset (10 R51, 70 R351); what the spec leaves unspecified holds 0 or the blank cell (logs 5
and 6), and the host has presented nothing (logs 1 and 2). -/
def State.reset : State where
  expRom := expTable
  logRom := logTable
  dbuf := []
  dlen := 0
  vbuf := []
  vlen := 0
  rsN := 0
  rsGen := []
  rsRem := []
  matVer := 0
  mat := []
  penA := 0
  penB := 0
  penC := 0
  penD := 0
  penTotal := 0
  penValid := false
  bestId := 0
  bestPen := 0
  bestValid := false
  inputs := []
  responses := []

end Sys2Proof.Machine
end

