-- ==== Sys2Proof/Machine/Ops.lean ====
section
/-! DEFINITION. The shared operations: giving a response, failing (which is all the unit has of an exception: spec 60
R320, R322, R324; there is no return from one, 60 R332), reading the named state, and the named state changes. -/

namespace Sys2Proof.Machine

/-- One step's outcome. -/
abbrev Result := Host.Outcome State Fault Refusal

/-- The number of a failure code (60 R321). -/
def failNumber : FailCode → Nat
  | .eOpcode => 1
  | .eField => 2
  | .eArg => 3
  | .eRange => 4
  | .eState => 5
  | .eShape => 6
  | .eChar => 7
  | .eEsc => 8
  | .eFull => 9

/-- The 33 bits of the response port: bit 32 `fail`, bits 31:0 the value or the code (30 R83). -/
def responsePort : Response → BitVec 33
  | .ok v => 0#1 ++ v
  | .fail c => 1#1 ++ natWord (failNumber c)

/-- The unit gives a response. A response is an output, not state of the unit (30 R84): no command reads it. -/
def State.emit (s : State) (r : Response) : State := { s with responses := r :: s.responses }

/-- `respond v`: the command ends with `OK(v)` (00 R15). -/
def respond (s : State) (v : Word) : Result := .next (s.emit (.ok v))

/-- `raise Fail(code)`: the command ends at once, responds `FAIL(code)` and changes no state (00 R15, 60 R322). -/
def fail (s : State) (c : FailCode) : Result := .next (s.emit (.fail c))

/-! ## Reading the named state -/

/-- `DBUF[i]`. -/
def State.dataAt (s : State) (i : Nat) : Byte := readMem blankByte s.dbuf i

/-- `VBUF[i]`. -/
def State.valueAt (s : State) (i : Nat) : Byte := readMem blankByte s.vbuf i

/-- `VBUF[0..VLEN)`: the contents of the value buffer (10 R28). -/
def State.values (s : State) : List Byte := readSeq blankByte s.vbuf 0 s.vlen.toNat

/-- `RS_GEN[i]`. -/
def State.genAt (s : State) (i : Nat) : Byte := readMem blankByte s.rsGen i

/-- `RS_REM[i]`. -/
def State.remAt (s : State) (i : Nat) : Byte := readMem blankByte s.rsRem i

/-- `RS_GEN[0..RS_N]`: the generator polynomial, `RS_N + 1` coefficients (10 R30). -/
def State.generator (s : State) : List Byte := readSeq blankByte s.rsGen 0 (s.rsN.toNat + 1)

/-- `RS_REM[0..RS_N - 1]`: the rolling remainder (10 R31). -/
def State.remainder (s : State) : List Byte := readSeq blankByte s.rsRem 0 s.rsN.toNat

/-- `GFMUL` through the unit's own ROM (40 R114). -/
def State.mul (s : State) (a b : Byte) : Byte := gfMul s.expRom s.logRom a b

/-- `MAT_SIZE` for a version: 0 for "no matrix", else `4*v + 17` (10 R41). -/
def sideOf (v : BitVec 6) : Nat := if v = 0 then 0 else 4 * v.toNat + 17

/-- `MAT_SIZE` (10 R41). -/
def State.side (s : State) : Nat := sideOf s.matVer

/-- The key of cell `(r, c)` (log 15). -/
def cellKey (r c : Nat) : Nat := matMax * r + c

/-- `MAT[r][c]` (10 R40). -/
def State.cell (s : State) (r c : Nat) : MatCell := readMem blankCell s.mat (cellKey r c)

/-- The coordinates of the square of side `n`, row by row. -/
def coords (n : Nat) : List (Nat × Nat) := (List.range n).flatMap fun r => (List.range n).map fun c => (r, c)

/-! ## The named state changes -/

/-- `D.CLR`: the fill pointer alone (47 R270); the bytes stay where they are (log 7). -/
def State.clearData (s : State) : State := { s with dlen := 0 }

/-- Append a byte to the data buffer (10 R27, 47 R271). -/
def State.pushData (s : State) (b : Byte) : State :=
  { s with dbuf := writeMem blankByte s.dbuf s.dlen.toNat b, dlen := s.dlen + 1 }

/-- `V.CLR`: the fill pointer alone (47 R274; log 7). -/
def State.clearValues (s : State) : State := { s with vlen := 0 }

/-- Append a value to the value buffer (10 R28, 47 R275). -/
def State.pushValue (s : State) (b : Byte) : State :=
  { s with vbuf := writeMem blankByte s.vbuf s.vlen.toNat b, vlen := s.vlen + 1 }

/-- Replace the whole contents of the value buffer, from index 0 (10 R28). -/
def State.setValues (s : State) (out : List Byte) : State :=
  { s with vbuf := writeSeq blankByte s.vbuf 0 out, vlen := BitVec.ofNat 13 out.length }

/-- `RS.GEN`'s writes: the count, the generator, a zero remainder (41 R132). -/
def State.setGenerator (s : State) (n : BitVec 8) (g : List Byte) : State :=
  { s with
    rsN := n
    rsGen := writeSeq blankByte s.rsGen 0 g
    rsRem := writeSeq blankByte s.rsRem 0 (List.replicate n.toNat 0) }

/-- Write the remainder register file from index 0 (10 R31). -/
def State.setRemainder (s : State) (rem : List Byte) : State :=
  { s with rsRem := writeSeq blankByte s.rsRem 0 rem }

/-- Blank every cell of the square of side `n`; cells outside it stay (46 R231). -/
def clearSquare (n : Nat) (m : Memory MatCell) : Memory MatCell :=
  m.filter fun x => ¬(x.1 / matMax < n ∧ x.1 % matMax < n)

/-- `MAT.INIT`'s writes (46 R231). -/
def State.initMatrix (s : State) (v : BitVec 6) : State :=
  { s with matVer := v, mat := clearSquare (sideOf v) s.mat, penValid := false, bestValid := false }

/-- `MAT.WR`'s writes: one cell, and the score is no longer valid (46 R232, 10 R42). -/
def State.writeCell (s : State) (r c : Nat) (x : MatCell) : State :=
  { s with mat := writeMem blankCell s.mat (cellKey r c) x, penValid := false }

/-- `MASK.APPLY`'s writes: new matrix contents, and the score is no longer valid (46 R238, 10 R42). -/
def State.setMatrix (s : State) (m : Memory MatCell) : State := { s with mat := m, penValid := false }

/-- `PEN.SCORE`'s writes: the four scores and their sum (46 R246, R247). -/
def State.setPenalty (s : State) (a b c d : Nat) : State :=
  { s with
    penA := natWord a
    penB := natWord b
    penC := natWord c
    penD := natWord d
    penTotal := natWord (a + b + c + d)
    penValid := true }

/-- `BEST.UPD`'s writes: the current score becomes the best candidate (46 R251). -/
def State.recordBest (s : State) (id : BitVec 3) : State :=
  { s with bestId := id, bestPen := s.penTotal, bestValid := true }

/-- `BEST.CLR`: the valid bit alone (46 R250; log 7). -/
def State.clearBest (s : State) : State := { s with bestValid := false }

/-- `SRST`'s writes: the six registers of 47 R267 (log 7). -/
def State.softReset (s : State) : State :=
  { s with dlen := 0, vlen := 0, rsN := 0, matVer := 0, penValid := false, bestValid := false }

/-- The hardware reset: the state becomes the reset state, not some mixture, and no response is given (70 R350). What
is the run's and not the unit's (10 R53), the host's inputs and the responses given, stays (log 4). -/
def State.hardReset (s : State) : State :=
  { State.reset with inputs := s.inputs, responses := s.responses }

/-- The host's first input has been taken; `rest` is what is left. -/
def State.withInputs (s : State) (rest : List HostInput) : State := { s with inputs := rest }

end Sys2Proof.Machine
end

