-- ==== Sys2Proof/Machine/Operands.lean ====
section
/-! DEFINITION. The operand forms of spec 47 R280 and their checks: extents over the data buffer, absolute indices, cell
coordinates, and the characters of 00 R17. -/

namespace Sys2Proof.Machine

/-- The bytes of an extent, `DBUF[base .. base + len)`, ascending (47 R280). -/
def State.extentBytes (s : State) (base len : BitVec 12) : List Byte := readSeq blankByte s.dbuf base.toNat len.toNat

/-- The bounds check of an extent: `base + len <= DLEN`, the sum without wrap-around (20 R68, 47 R280). -/
abbrev State.extentOk (s : State) (base len : BitVec 12) : Prop := base.toNat + len.toNat ≤ s.dlen.toNat

/-- Read an extent, or `E_RANGE` (20 R68). -/
def extent (s : State) (base len : BitVec 12) : Except FailCode (List Byte) :=
  if s.extentOk base len then .ok (s.extentBytes base len) else .error .eRange

/-- Run a check over an extent; the check's value is the response. The form of the nine validators (45 R213). -/
def checkExtent (s : State) (base len : BitVec 12) (check : List Byte → Except FailCode Word) : Result :=
  match extent s base len with
  | .error e => fail s e
  | .ok bytes =>
    match check bytes with
    | .error e => fail s e
    | .ok v => respond s v

/-- Run a sequencer over an extent: its output replaces the value buffer, nothing is written if it fails (43 R170, 45
R208). The response is the new `VLEN`. -/
def sequenceExtent (s : State) (base len : BitVec 12) (seq : List Byte → Except FailCode (List Byte)) : Result :=
  match extent s base len with
  | .error e => fail s e
  | .ok bytes =>
    match seq bytes with
    | .error e => fail s e
    | .ok out => respond (s.setValues out) (natWord out.length)

/-- Run a checksum over the whole value buffer: `E_SHAPE` if it is empty, `E_CHAR` if a value exceeds `top` (43 R176, 44
R187, 45 R210). -/
def checksumValues (s : State) (top : Nat) (sum : List Nat → Nat) : Result :=
  if s.vlen = 0 then fail s .eShape
  else if s.values.any (fun v => top < v.toNat) then fail s .eChar
  else respond s (natWord (sum (s.values.map BitVec.toNat)))

/-- Coordinates of an existing cell: `row < MAT_SIZE` and `col < MAT_SIZE` (20 R68). -/
abbrev State.cellOk (s : State) (row col : Byte) : Prop := row.toNat < s.side ∧ col.toNat < s.side

/-- An ASCII digit: a byte in 48..57 (00 R17). -/
def isDigit (b : Byte) : Bool := 48 ≤ b.toNat && b.toNat ≤ 57

/-- Case folding to upper: 97..122 to 65..90, every other byte unchanged (00 R17). -/
def foldUpper (b : Byte) : Byte := if 97 ≤ b.toNat ∧ b.toNat ≤ 122 then b - 32 else b

/-- `E_SHAPE` unless `shape` accepts the length, then `E_CHAR` unless every byte is a digit: the digit symbologies
(45 R215 to R220). -/
def checkDigits (shape : Nat → Bool) (bytes : List Byte) : Except FailCode Unit :=
  if shape bytes.length then (if bytes.all isDigit then .ok () else .error .eChar) else .error .eShape

end Sys2Proof.Machine
end

