-- ==== Sys2Proof/Machine/Tables.lean ====
section
/-! DEFINITION. The constants that the spec fixes (00 R8) and the default contents of the configuration (00 R10, R11),
which the machine behind `step` runs at (logs 8 to 12). -/

namespace Sys2Proof.Machine

/-- `FMT_POLY` (00 R8). -/
def fmtPoly : Nat := 0x537

/-- `FMT_XOR` (00 R8). -/
def fmtXor : Nat := 0x5412

/-- `VER_POLY` (00 R8). -/
def verPoly : Nat := 0x1F25

/-- The default `MASKPRED` (46 R236). -/
def maskPredDefault (id : BitVec 3) (r c : Nat) : Bool :=
  match id.toNat with
  | 0 => (r + c) % 2 = 0
  | 1 => r % 2 = 0
  | 2 => c % 3 = 0
  | 3 => (r + c) % 3 = 0
  | 4 => (r / 2 + c / 3) % 2 = 0
  | 5 => (r * c) % 2 + (r * c) % 3 = 0
  | 6 => ((r * c) % 2 + (r * c) % 3) % 2 = 0
  | _ => ((r + c) % 2 + (r * c) % 3) % 2 = 0

/-- Cells from bits, 1 = dark (46 R244). -/
def cellsOfBits (bits : List Nat) : List Bool := bits.map (· == 1)

/-- The default `EAN13_PARITY` (44 R196): bit 5 the first left digit, 0 = L, 1 = G. Outside 0..9 no command reads it. -/
def ean13ParityDefault (d : BitVec 4) : BitVec 6 :=
  [0b000000#6, 0b001011, 0b001101, 0b001110, 0b010011, 0b011001, 0b011100, 0b010101, 0b010110, 0b011010].getD d.toNat 0

/-- The default `UPCE_PARITY` (44 R198): bit 5 the first core digit, 0 = O = L, 1 = E = G. Outside 0..9 no command
reads it. -/
def upceParityDefault (d : BitVec 4) : BitVec 6 :=
  [0b111000#6, 0b110100, 0b110010, 0b110001, 0b101100, 0b100110, 0b100011, 0b101010, 0b101001, 0b100101].getD d.toNat 0

/-- The default `UPCE_EXPAND` (44 R192), by the last core digit. -/
def upceExpandDefault (ns : Byte) (core : List Byte) : List Byte :=
  match core with
  | [d1, d2, d3, d4, d5, d6] =>
    if d6.toNat ≤ 2 then [ns, d1, d2, d6, 0, 0, 0, 0, d3, d4, d5]
    else if d6 = 3 then [ns, d1, d2, d3, 0, 0, 0, 0, 0, d4, d5]
    else if d6 = 4 then [ns, d1, d2, d3, d4, 0, 0, 0, 0, 0, d5]
    else [ns, d1, d2, d3, d4, d5, 0, 0, 0, 0, d6]
  | _ => []

/-- The ASCII codes `first`, `first + 1`, ... (00 R17). -/
def asciiRun (first count : Nat) : List Byte := (List.range count).map fun k => BitVec.ofNat 8 (first + k)

/-- The symbols of Code93 values 0..42 in order: digits, letters, then `-`, `.`, space, `$`, `/`, `+`, `%` (45 R207). -/
def symbols93 : List Byte := asciiRun 48 10 ++ asciiRun 65 26 ++ [45, 46, 32, 36, 47, 43, 37]

/-- The 20 characters of Codabar: digits, then `-`, `$`, `:`, `/`, `.`, `+`, then `A` to `D` (45 R221). -/
def symbolsCB : List Byte := asciiRun 48 10 ++ [45, 36, 58, 47, 46, 43] ++ asciiRun 65 4

/-- The default `ALPHA93` (45 R207): no byte has one of the values 43..46. -/
def alpha93Default (b : Byte) : Option Byte :=
  if b ∈ symbols93 then some (BitVec.ofNat 8 (symbols93.idxOf b)) else none

/-- The configuration of the machine behind `step`: the spec's defaults. -/
def unitConfig : Config where
  rsNMax := 30
  maskPred := maskPredDefault
  penTmplA := cellsOfBits [1, 0, 1, 1, 1, 0, 1, 0, 0, 0, 0]
  penTmplB := cellsOfBits [0, 0, 0, 0, 1, 0, 1, 1, 1, 0, 1]
  c128Start
    | .a => 103
    | .b => 104
    | .c => 105
  c128Switch
    | .a => 101
    | .b => 100
    | .c => 99
  c128DefaultSet := .b
  ean13Parity := ean13ParityDefault
  upceParity := upceParityDefault
  upceExpand := upceExpandDefault
  alpha39 := (· ∈ symbols93)
  alphaCB := (· ∈ symbolsCB)
  alpha93 := alpha93Default

end Sys2Proof.Machine
end

