-- ==== Sys2Proof/Machine/Bch.lean ====
section
/-! DEFINITION. BCH commands (spec 42 R150, R152, R155). -/

namespace Sys2Proof.Machine

/-- The loop of `BCHREM` over the `k` bit positions `dg + k - 1` down to `dg` (42 R150). -/
def bchLoop (g dg : Nat) : Nat → Nat → Nat
  | 0, v => v
  | k + 1, v => bchLoop g dg k (if v.testBit (dg + k) then v ^^^ (g <<< k) else v)

/-- `BCHREM(v, g, dg, top)` (42 R150). -/
def bchRem (v g dg top : Nat) : Nat := bchLoop g dg (top + 1 - dg) v

/-- The 15-bit format information of a 5-bit data word (42 R152). -/
def formatInfo (d5 : Nat) : Nat := ((d5 <<< 10) ||| bchRem (d5 <<< 10) fmtPoly 10 14) ^^^ fmtXor

/-- The 18-bit version information (42 R155). -/
def versionInfo (v : Nat) : Nat := (v <<< 12) ||| bchRem (v <<< 12) verPoly 12 17

/-- `BCH.FMT d5` (42 R152). -/
def execBchFmt (d5 : BitVec 5) (s : State) : Result := respond s (natWord (formatInfo d5.toNat))

/-- `BCH.VER v` (42 R155). -/
def execBchVer (v : BitVec 6) (s : State) : Result :=
  if v.toNat < 7 ∨ 40 < v.toNat then fail s .eArg
  else respond s (natWord (versionInfo v.toNat))

end Sys2Proof.Machine
end

