-- ==== Sys2Proof/Machine/Buffers.lean ====
section
/-! DEFINITION. Buffer commands (spec 47 R270 to R276). -/

namespace Sys2Proof.Machine

/-- `D.CLR` (47 R270). -/
def execDClr (s : State) : Result := respond s.clearData 0

/-- `D.PUSH b` (47 R271): the response is the new `DLEN`. -/
def execDPush (b : Byte) (s : State) : Result :=
  if s.dlen.toNat = dbufSize then fail s .eFull
  else respond (s.pushData b) (zext32 (s.pushData b).dlen)

/-- `D.RD idx` (47 R272). -/
def execDRd (idx : BitVec 12) (s : State) : Result :=
  if s.dlen.toNat ≤ idx.toNat then fail s .eRange
  else respond s (zext32 (s.dataAt idx.toNat))

/-- `V.CLR` (47 R274). -/
def execVClr (s : State) : Result := respond s.clearValues 0

/-- `V.PUSH b` (47 R275): the value is not range-checked; the response is the new `VLEN`. -/
def execVPush (b : Byte) (s : State) : Result :=
  if s.vlen.toNat = vbufSize then fail s .eFull
  else respond (s.pushValue b) (zext32 (s.pushValue b).vlen)

/-- `V.RD idx` (47 R276). -/
def execVRd (idx : BitVec 12) (s : State) : Result :=
  if s.vlen.toNat ≤ idx.toNat then fail s .eRange
  else respond s (zext32 (s.valueAt idx.toNat))

end Sys2Proof.Machine
end

