-- ==== Sys2Proof/Machine/Flags.lean ====
section
/-! DEFINITION. The unit's flag-like state (spec 10 R23): the valid bits, `FLAGS`, and the control and status registers
that `CSR.RD` reads (10 R44 to R46). There are no arithmetic flags. -/

namespace Sys2Proof.Machine

/-- `RS_VALID` (10 R29, R45). -/
def State.rsValid (s : State) : Bool := s.rsN ≠ 0

/-- `MAT_VALID` (10 R41, R45). -/
def State.matValid (s : State) : Bool := s.matVer ≠ 0

/-- `FLAGS`, assembled on read: bit 0 `RS_VALID`, bit 1 `MAT_VALID`, bit 2 `PEN_VALID`, bit 3 `BEST_VALID` (10 R45). -/
def State.flags (s : State) : Word :=
  0#28 ++ BitVec.ofBool s.bestValid ++ BitVec.ofBool s.penValid ++ BitVec.ofBool s.matValid ++ BitVec.ofBool s.rsValid

/-- `IDENT`: the field polynomial above the command-set version 1.0 (10 R46). -/
def ident : Word := 0x011D0100

/-- The register map of 10 R44; every value zero-extended. Index 14 and above: no register (`CSR.RD` fails there). -/
def State.csr (s : State) (idx : Nat) : Word :=
  match idx with
  | 0 => zext32 s.dlen
  | 1 => zext32 s.vlen
  | 2 => zext32 s.rsN
  | 3 => zext32 s.matVer
  | 4 => natWord s.side
  | 5 => s.penA
  | 6 => s.penB
  | 7 => s.penC
  | 8 => s.penD
  | 9 => s.penTotal
  | 10 => zext32 s.bestId
  | 11 => s.bestPen
  | 12 => s.flags
  | _ => ident

end Sys2Proof.Machine
end

