-- ==== Sys2Proof/Machine/Control.lean ====
section
/-! DEFINITION. Control commands (spec 47 R266 to R268). -/

namespace Sys2Proof.Machine

/-- `NOP` (47 R266). -/
def execNop (s : State) : Result := respond s 0

/-- `SRST` (47 R267). -/
def execSrst (s : State) : Result := respond s.softReset 0

/-- `CSR.RD idx` (47 R268). -/
def execCsrRd (idx : BitVec 12) (s : State) : Result :=
  if 13 < idx.toNat then fail s .eArg
  else if 5 ≤ idx.toNat ∧ idx.toNat ≤ 9 ∧ s.penValid = false then fail s .eState
  else if (idx.toNat = 10 ∨ idx.toNat = 11) ∧ s.bestValid = false then fail s .eState
  else respond s (s.csr idx.toNat)

end Sys2Proof.Machine
end

