-- ==== Sys2Proof/Machine/Gf.lean ====
section
/-! DEFINITION. GF(256) commands (spec 40 R115, R117, R118). -/

namespace Sys2Proof.Machine

/-- `GF.MUL a, b` (40 R115). -/
def execGfMul (a b : Byte) (s : State) : Result := respond s (zext32 (s.mul a b))

/-- `GF.EXP i` (40 R117): the table has 255 entries, so 255 is refused. -/
def execGfExp (i : Byte) (s : State) : Result :=
  if 254 < i.toNat then fail s .eArg
  else respond s (zext32 (expAt s.expRom i.toNat))

/-- `GF.LOG a` (40 R118): there is no `LOG[0]`. -/
def execGfLog (a : Byte) (s : State) : Result :=
  if a = 0 then fail s .eArg
  else respond s (zext32 (logAt s.logRom a))

end Sys2Proof.Machine
end

