-- ==== Sys2Proof/Machine/Matrix.lean ====
section
/-! DEFINITION. Matrix and mask commands (spec 46 R231 to R233, R237, R238). -/

namespace Sys2Proof.Machine

/-- `MAT.INIT v` (46 R231): the response is the side. -/
def execMatInit (v : BitVec 6) (s : State) : Result :=
  if v.toNat < 1 ∨ 40 < v.toNat then fail s .eArg
  else respond (s.initMatrix v) (natWord (4 * v.toNat + 17))

/-- The cell that `z` writes: `z[0]` dark, `z[1]` reserved; never `UNSET` (46 R232). -/
def cellOfBits (z : BitVec 2) : MatCell := ⟨if z.getLsbD 0 then .dark else .light, z.getLsbD 1⟩

/-- `MAT.WR row, col, z` (46 R232). -/
def execMatWr (row col : Byte) (z : BitVec 2) (s : State) : Result :=
  if s.matVer = 0 then fail s .eState
  else if s.cellOk row col then respond (s.writeCell row.toNat col.toNat (cellOfBits z)) 0
  else fail s .eRange

/-- A cell as `MAT.RD` returns it: set, reserved, dark in bits 2, 1, 0 (46 R233). -/
def cellBits (x : MatCell) : BitVec 3 :=
  BitVec.ofBool (x.st != .unset) ++ BitVec.ofBool x.rsv ++ BitVec.ofBool (x.st == .dark)

/-- `MAT.RD row, col` (46 R233). -/
def execMatRd (row col : Byte) (s : State) : Result :=
  if s.matVer = 0 then fail s .eState
  else if s.cellOk row col then respond s (zext32 (cellBits (s.cell row.toNat col.toNat)))
  else fail s .eRange

/-- `MASK.BIT id, row, col` for a configuration (46 R237): no matrix is needed. -/
def maskBitWith (c : Config) (id : BitVec 3) (row col : Byte) (s : State) : Result :=
  respond s (if c.maskPred id row.toNat col.toNat then 1 else 0)

/-- `MASK.BIT id, row, col` (46 R237). -/
def execMaskBit (id : BitVec 3) (row col : Byte) (s : State) : Result := maskBitWith unitConfig id row col s

/-- The colour inverted (46 R238: `LIGHT` if `DARK`, else `DARK`). -/
def flipCell (x : MatCell) : MatCell := { x with st := if x.st = .dark then .light else .dark }

/-- Whether a mask inverts this cell: unreserved, and the predicate holds (46 R238). -/
def masked (pred : Nat → Nat → Bool) (r c : Nat) (x : MatCell) : Bool := !x.rsv && pred r c

/-- The matrix after a mask over the square of side `n`. `MASK.APPLY` runs it only when every unreserved cell of the
square is set, so every cell that it inverts is listed. -/
def maskSquare (pred : Nat → Nat → Bool) (n : Nat) (m : Memory MatCell) : Memory MatCell :=
  m.map fun x =>
    let r := x.1 / matMax
    let c := x.1 % matMax
    (x.1, if r < n && c < n && masked pred r c x.2 then flipCell x.2 else x.2)

/-- An unreserved cell of the square is still `UNSET` (46 R238). -/
def State.dataUnset (s : State) : Bool :=
  (coords s.side).any fun p => !(s.cell p.1 p.2).rsv && (s.cell p.1 p.2).st == .unset

/-- The number of cells that a mask inverts (46 R238). -/
def State.maskCount (s : State) (pred : Nat → Nat → Bool) : Nat :=
  (coords s.side).countP fun p => masked pred p.1 p.2 (s.cell p.1 p.2)

/-- `MASK.APPLY id` for a configuration (46 R238). -/
def maskApplyWith (c : Config) (id : BitVec 3) (s : State) : Result :=
  if s.matVer = 0 then fail s .eState
  else if s.dataUnset then fail s .eState
  else respond (s.setMatrix (maskSquare (c.maskPred id) s.side s.mat)) (natWord (s.maskCount (c.maskPred id)))

/-- `MASK.APPLY id` (46 R238). -/
def execMaskApply (id : BitVec 3) (s : State) : Result := maskApplyWith unitConfig id s

end Sys2Proof.Machine
end

