-- ==== Sys2Proof/Machine/Penalty.lean ====
section
/-! DEFINITION. The penalty scorer and the best-mask register (spec 46 R240 to R251). The scorer works on the square as
rows of colours, `true` = dark. -/

namespace Sys2Proof.Machine

/-- The square, row by row. -/
def State.square (s : State) : List (List MatCell) :=
  (List.range s.side).map fun r => (List.range s.side).map fun c => s.cell r c

/-- The colours of a square, `true` = dark. -/
def darkRows (sq : List (List MatCell)) : List (List Bool) := sq.map fun row => row.map fun x => x.st == .dark

/-- The columns of a square given by its rows, each top to bottom. -/
def columnsOf (rows : List (List Bool)) : List (List Bool) :=
  (List.range rows.length).map fun c => rows.map fun row => row.getD c false

/-- The lines of 46 R240: rows left to right, then columns top to bottom. -/
def linesOf (rows : List (List Bool)) : List (List Bool) := rows ++ columnsOf rows

/-- What a maximal run of length `run` adds (46 R241). -/
def runScore (run : Nat) : Nat := if 5 ≤ run then run - 2 else 0

/-- Rule (a) along a line, in a run of colour `last` that has `run` cells so far (46 R241). -/
def runsFrom (last : Bool) (run : Nat) : List Bool → Nat
  | [] => runScore run
  | x :: xs => if x = last then runsFrom last (run + 1) xs else runScore run + runsFrom x 1 xs

/-- Rule (a) on one line (46 R241). -/
def runsOf : List Bool → Nat
  | [] => 0
  | x :: xs => runsFrom x 1 xs

/-- Rule (a) (46 R241). -/
def penaltyA (rows : List (List Bool)) : Nat := ((linesOf rows).map runsOf).sum

/-- Rule (b) on two adjacent rows: 3 for each 2 x 2 block of one colour (46 R242). -/
def blocksOf : List Bool → List Bool → Nat
  | a :: b :: up, x :: y :: down => (if a = b ∧ a = x ∧ a = y then 3 else 0) + blocksOf (b :: up) (y :: down)
  | _, _ => 0

/-- Rule (b) (46 R242). -/
def penaltyB : List (List Bool) → Nat
  | up :: down :: rest => blocksOf up down + penaltyB (down :: rest)
  | _ => 0

/-- Rule (c) on one line: 40 for each window of 11 cells that equals a template (46 R243). -/
def windowsOf (tA tB : List Bool) : List Bool → Nat
  | [] => 0
  | x :: xs => (if (x :: xs).take 11 = tA ∨ (x :: xs).take 11 = tB then 40 else 0) + windowsOf tA tB xs

/-- Rule (c) (46 R243). -/
def penaltyC (c : Config) (rows : List (List Bool)) : Nat :=
  ((linesOf rows).map (windowsOf c.penTmplA c.penTmplB)).sum

/-- `abs(a - b)` on non-negative integers (00 R14). -/
def absDiff (a b : Nat) : Nat := (a - b) + (b - a)

/-- Rule (d) from the number of dark cells and of all cells (46 R245). -/
def balance (dark total : Nat) : Nat :=
  let lower := dark * 20 / total * 5
  10 * min (absDiff lower 50 / 5) (absDiff (lower + 5) 50 / 5)

/-- Rule (d) (46 R245). -/
def penaltyD (rows : List (List Bool)) : Nat :=
  balance ((rows.map fun row => row.count true).sum) (rows.length * rows.length)

/-- `PEN.SCORE` for a configuration (46 R247): the response is the total. -/
def penScoreWith (c : Config) (s : State) : Result :=
  if s.matVer = 0 then fail s .eState
  else if s.square.any (fun row => row.any fun x => x.st == .unset) then fail s .eState
  else
    let rows := darkRows s.square
    let scored := s.setPenalty (penaltyA rows) (penaltyB rows) (penaltyC c rows) (penaltyD rows)
    respond scored scored.penTotal

/-- `PEN.SCORE` (46 R247). -/
def execPenScore (s : State) : Result := penScoreWith unitConfig s

/-- `BEST.CLR` (46 R250). -/
def execBestClr (s : State) : Result := respond s.clearBest 0

/-- The state after a candidate is offered: recorded if there is none yet or if its score is strictly lower, unsigned
(46 R251, R253). -/
def State.offerBest (s : State) (id : BitVec 3) : State :=
  if s.bestValid = false ∨ s.penTotal.toNat < s.bestPen.toNat then s.recordBest id else s

/-- `BEST.UPD id` (46 R251): the response is `BEST_ID` after the update. -/
def execBestUpd (id : BitVec 3) (s : State) : Result :=
  if s.penValid = false then fail s .eState
  else respond (s.offerBest id) (zext32 (s.offerBest id).bestId)

end Sys2Proof.Machine
end

