-- ==== Sys2Proof/Machine/ReedSolomon.lean ====
section
/-! DEFINITION. Reed-Solomon commands (spec 41 R132 to R139). Coefficients stand in descending degree order (00 R16). -/

namespace Sys2Proof.Machine

/-- One round of `RS.GEN`'s loop: `g(x)` times `(x + root)` (41 R132). -/
def genRound (mul : Byte → Byte → Byte) (g : List Byte) (root : Byte) : List Byte :=
  List.zipWith (· ^^^ ·) (g ++ [0]) (0 :: g.map fun k => mul k root)

/-- The generator polynomial for `n` EC codewords, from `[1]` by `i = 0 .. n - 1` (41 R131, R132). -/
def generatorPoly (mul : Byte → Byte → Byte) (alpha : Nat → Byte) (n : Nat) : List Byte :=
  (List.range n).foldl (fun g i => genRound mul g (alpha i)) [1]

/-- One step of the rolling division: `f` is the byte fed plus the top of the remainder; the remainder shifts up with a
zero at the bottom, plus `f` times the generator below its leading 1 (41 R135). -/
def feedRound (mul : Byte → Byte → Byte) (gen rem : List Byte) (d : Byte) : List Byte :=
  match rem with
  | [] => []
  | top :: rest => List.zipWith (fun r g => r ^^^ mul g (d ^^^ top)) (rest ++ [0]) gen.tail

/-- `RS.GEN n` for a configuration (41 R132). -/
def rsGenWith (c : Config) (n : Byte) (s : State) : Result :=
  if n.toNat = 0 ∨ c.rsNMax < n.toNat then fail s .eArg
  else respond (s.setGenerator n (generatorPoly s.mul (expAt s.expRom) n.toNat)) (zext32 n)

/-- `RS.GEN n` (41 R132). -/
def execRsGen (n : Byte) (s : State) : Result := rsGenWith unitConfig n s

/-- `RS.CLR` (41 R134). -/
def execRsClr (s : State) : Result :=
  if s.rsN = 0 then fail s .eState
  else respond (s.setRemainder (List.replicate s.rsN.toNat 0)) 0

/-- `RS.FEED d` (41 R135). -/
def execRsFeed (d : Byte) (s : State) : Result :=
  if s.rsN = 0 then fail s .eState
  else respond (s.setRemainder (feedRound s.mul s.generator s.remainder d)) 0

/-- `RS.ENC base, len`: a zero remainder, then every byte of the extent fed in ascending order (41 R137). -/
def execRsEnc (base len : BitVec 12) (s : State) : Result :=
  if s.rsN = 0 then fail s .eState
  else
    match extent s base len with
    | .error e => fail s e
    | .ok bytes =>
      respond (s.setRemainder (bytes.foldl (feedRound s.mul s.generator) (List.replicate s.rsN.toNat 0))) (zext32 s.rsN)

/-- `RS.RD idx` (41 R138). -/
def execRsRd (idx : BitVec 12) (s : State) : Result :=
  if s.rsN = 0 then fail s .eState
  else if s.rsN.toNat ≤ idx.toNat then fail s .eRange
  else respond s (zext32 (s.remAt idx.toNat))

/-- `RS.GRD idx`: the generator has one coefficient more than the remainder (41 R139). -/
def execRsGrd (idx : BitVec 12) (s : State) : Result :=
  if s.rsN = 0 then fail s .eState
  else if s.rsN.toNat < idx.toNat then fail s .eRange
  else respond s (zext32 (s.genAt idx.toNat))

end Sys2Proof.Machine
end

