-- ==== Sys2Proof/Machine/Code128.lean ====
section
/-! DEFINITION. Code128 commands (spec 43 R170, R176) and the sequencer that `VAL.C128` shares (45 R214). -/

namespace Sys2Proof.Machine

/-- The byte `'{'`, 123, that begins every escape (00 R17, 43 R169). -/
def brace : Byte := 0x7B

/-- The code set that a selector letter names; upper case only (43 R169). -/
def selector (b : Byte) : Option CodeSet :=
  if b = 65 then some .a else if b = 66 then some .b else if b = 67 then some .c else none

/-- The value of one byte in sets A and B; in set C a single byte has none (43 R166). -/
def singleValue (set : CodeSet) (ch : Byte) : Option Byte :=
  match set with
  | .a => if ch.toNat ≤ 31 then some (ch + 64) else if ch.toNat ≤ 95 then some (ch - 32) else none
  | .b => if 32 ≤ ch.toNat ∧ ch.toNat ≤ 127 then some (ch - 32) else none
  | .c => none

/-- The value of a digit pair in set C (43 R166). -/
def pairValue (ch ch2 : Byte) : Option Byte :=
  if isDigit ch && isDigit ch2 then some (10 * (ch - 48) + (ch2 - 48)) else none

/-- One more value in front of the rest of the sequence, if there is such a value (`E_CHAR` if not: 43 R170). -/
def consValue (v : Option Byte) (rest : Except FailCode (List Byte)) : Except FailCode (List Byte) :=
  match v with
  | none => .error .eChar
  | some x =>
    match rest with
    | .error e => .error e
    | .ok out => .ok (x :: out)

/-- The `while` loop of 43 R170 from the byte at hand on, left to right: escapes first, at a datum boundary only, then
one byte in sets A and B, two digits in set C. -/
def scan128 (c : Config) : CodeSet → List Byte → Except FailCode (List Byte)
  | _, [] => .ok []
  | set, ch :: tail =>
    if ch = brace then
      match tail with
      | [] => .error .eEsc
      | e :: rest =>
        match selector e with
        | some target =>
          if target = set then .error .eEsc else consValue (some (c.c128Switch target)) (scan128 c target rest)
        | none => if e = brace then consValue (singleValue set brace) (scan128 c set rest) else .error .eEsc
    else
      match set with
      | .a => consValue (singleValue .a ch) (scan128 c .a tail)
      | .b => consValue (singleValue .b ch) (scan128 c .b tail)
      | .c =>
        match tail with
        | [] => .error .eChar
        | ch2 :: rest => consValue (pairValue ch ch2) (scan128 c .c rest)

/-- The leading selector, if the input begins with one: the initial code set and the bytes after it (43 R170). -/
def leading128 (c : Config) (bytes : List Byte) : CodeSet × List Byte :=
  match bytes with
  | b0 :: b1 :: rest =>
    if b0 = brace then
      match selector b1 with
      | some set => (set, rest)
      | none => (c.c128DefaultSet, bytes)
    else (c.c128DefaultSet, bytes)
  | _ => (c.c128DefaultSet, bytes)

/-- The algorithm of 43 R170 after the bounds check: non-empty, leading selector, start value, scan. -/
def sequence128 (c : Config) (bytes : List Byte) : Except FailCode (List Byte) :=
  if bytes = [] then .error .eShape
  else consValue (some (c.c128Start (leading128 c bytes).1)) (scan128 c (leading128 c bytes).1 (leading128 c bytes).2)

/-- `Σ value[i]·i`, `value[0]` counted once, mod 103 (43 R176). -/
def checksum128 (vs : List Nat) : Nat :=
  (vs.zipIdx.map fun x => x.1 * (if x.2 = 0 then 1 else x.2)).sum % 103

/-- `C128.SEQ base, len` for a configuration (43 R170). -/
def c128SeqWith (c : Config) (base len : BitVec 12) (s : State) : Result := sequenceExtent s base len (sequence128 c)

/-- `C128.SEQ base, len` (43 R170). -/
def execC128Seq (base len : BitVec 12) (s : State) : Result := c128SeqWith unitConfig base len s

/-- `C128.CHK` (43 R176). -/
def execC128Chk (s : State) : Result := checksumValues s 105 checksum128

end Sys2Proof.Machine
end

