-- ==== Sys2Proof/Machine/Code93.lean ====
section
/-! DEFINITION. Code93 commands (spec 45 R208, R210) and the sequencer that `VAL.C93` shares (45 R222). -/

namespace Sys2Proof.Machine

/-- The values of the bytes, case-folded, or `E_CHAR` at the first byte without one (45 R208). -/
def scan93 (c : Config) : List Byte → Except FailCode (List Byte)
  | [] => .ok []
  | b :: rest =>
    match c.alpha93 (foldUpper b) with
    | none => .error .eChar
    | some v =>
      match scan93 c rest with
      | .error e => .error e
      | .ok out => .ok (v :: out)

/-- The algorithm of 45 R208 after the bounds check: non-empty, then the scan. -/
def sequence93 (c : Config) (bytes : List Byte) : Except FailCode (List Byte) :=
  if bytes = [] then .error .eShape else scan93 c bytes

/-- The weighted sum counted from the right end, weights 1..`cycle` repeating (45 R206, R210). -/
def weighted93 (cycle : Nat) (vs : List Nat) : Nat := (vs.reverse.zipIdx.map fun x => x.1 * (x.2 % cycle + 1)).sum

/-- The check value `C` (45 R210). -/
def check93C (vs : List Nat) : Nat := weighted93 20 vs % 47

/-- The check value `K`, over the sequence with `C` appended (45 R206, R210). -/
def check93K (vs : List Nat) : Nat := weighted93 15 (vs ++ [check93C vs]) % 47

/-- `C or (K << 8)` (45 R210). -/
def checks93 (vs : List Nat) : Nat := check93C vs ||| (check93K vs <<< 8)

/-- `C93.SEQ base, len` for a configuration (45 R208). -/
def c93SeqWith (c : Config) (base len : BitVec 12) (s : State) : Result := sequenceExtent s base len (sequence93 c)

/-- `C93.SEQ base, len` (45 R208). -/
def execC93Seq (base len : BitVec 12) (s : State) : Result := c93SeqWith unitConfig base len s

/-- `C93.CHK` (45 R210). -/
def execC93Chk (s : State) : Result := checksumValues s 46 checks93

end Sys2Proof.Machine
end

