-- ==== Sys2Proof/Machine/Upc.lean ====
section
/-! DEFINITION. Mod-10 check digit, UPC-E expander, parity selectors (spec 44 R187, R191, R196, R198) and the UPC-E input
check that `VAL.UPCE` shares (45 R218). -/

namespace Sys2Proof.Machine

/-- The weighted sum of `MOD10`: the rightmost digit has weight 3, its left neighbour 1, and so on (44 R186). -/
def mod10Sum (ds : List Nat) : Nat := (ds.reverse.zipIdx.map fun x => (if x.2 % 2 = 0 then 3 else 1) * x.1).sum

/-- `MOD10(d)` (44 R186). -/
def mod10 (ds : List Nat) : Nat := (10 - mod10Sum ds % 10) % 10

/-- `M10.CHK` (44 R187). -/
def execM10Chk (s : State) : Result := checksumValues s 9 mod10

/-- A UPC-E input read as digit values: number system, six core digits, supplied check digit (44 R190). -/
structure UpceInput where
  ns : Byte
  core : List Byte
  chk : Option Byte
deriving DecidableEq, Repr

/-- The checks of 44 R191 after the bounds check, in its order: length, digits, number system 0 or 1. -/
def parseUpce (bytes : List Byte) : Except FailCode UpceInput :=
  match checkDigits (fun n => n = 6 || n = 7 || n = 8) bytes with
  | .error e => .error e
  | .ok _ =>
    let t := bytes.map (· - 48)
    let u : UpceInput :=
      if t.length = 6 then ⟨0, t, none⟩
      else ⟨t.headD 0, (t.drop 1).take 6, if t.length = 8 then t[7]? else none⟩
    if 1 < u.ns.toNat then .error .eChar else .ok u

/-- The 12 digits of the UPC-A form: the expansion, then the check digit, computed if it is not supplied (44 R191). -/
def upceDigits (c : Config) (u : UpceInput) : List Byte × Byte :=
  let a := c.upceExpand u.ns u.core
  let chk := u.chk.getD (BitVec.ofNat 8 (mod10 (a.map BitVec.toNat)))
  (a ++ [chk], chk)

/-- `UPCE.EXP base, len` for a configuration (44 R191): the response is the check digit. -/
def upceExpWith (c : Config) (base len : BitVec 12) (s : State) : Result :=
  match extent s base len with
  | .error e => fail s e
  | .ok bytes =>
    match parseUpce bytes with
    | .error e => fail s e
    | .ok u => respond (s.setValues (upceDigits c u).1) (zext32 (upceDigits c u).2)

/-- `UPCE.EXP base, len` (44 R191). -/
def execUpceExp (base len : BitVec 12) (s : State) : Result := upceExpWith unitConfig base len s

/-- `PAR.EAN13 d` for a configuration (44 R196). -/
def parEan13With (c : Config) (d : BitVec 4) (s : State) : Result :=
  if 9 < d.toNat then fail s .eArg else respond s (zext32 (c.ean13Parity d))

/-- `PAR.EAN13 d` (44 R196). -/
def execParEan13 (d : BitVec 4) (s : State) : Result := parEan13With unitConfig d s

/-- `PAR.UPCE d` for a configuration (44 R198): by the check digit alone, no inversion (44 R199). -/
def parUpceWith (c : Config) (d : BitVec 4) (s : State) : Result :=
  if 9 < d.toNat then fail s .eArg else respond s (zext32 (c.upceParity d))

/-- `PAR.UPCE d` (44 R198). -/
def execParUpce (d : BitVec 4) (s : State) : Result := parUpceWith unitConfig d s

end Sys2Proof.Machine
end

