-- ==== Sys2Proof/Machine/Validate.lean ====
section
/-! DEFINITION. The nine validators (spec 45 R213 to R222). None writes state; the response is the number of check values
the unit can compute for the symbology (45 R213). -/

namespace Sys2Proof.Machine

/-- A sequencer's checks with its output discarded, responding `count` (45 R214, R222). -/
def discard (seq : List Byte → Except FailCode (List Byte)) (count : Word) (bytes : List Byte) : Except FailCode Word :=
  match seq bytes with
  | .error e => .error e
  | .ok _ => .ok count

/-- The digit symbologies: length, then digits, then the response 0 (45 R215 to R217, R220). -/
def digitsOnly (shape : Nat → Bool) (bytes : List Byte) : Except FailCode Word :=
  match checkDigits shape bytes with
  | .error e => .error e
  | .ok _ => .ok 0

/-- Every byte, case-folded, in the alphabet, or `E_CHAR` (45 R219, R221). -/
def checkAlphabet (alpha : Byte → Bool) (bytes : List Byte) : Except FailCode Word :=
  if bytes.all (fun b => alpha (foldUpper b)) then .ok 0 else .error .eChar

/-- `VAL.C128 base, len` (45 R214). -/
def execValC128 (base len : BitVec 12) (s : State) : Result :=
  checkExtent s base len (discard (sequence128 unitConfig) 1)

/-- `VAL.EAN13 base, len` (45 R215): the check digit is not checked. -/
def execValEan13 (base len : BitVec 12) (s : State) : Result := checkExtent s base len (digitsOnly (· == 13))

/-- `VAL.EAN8 base, len` (45 R216). -/
def execValEan8 (base len : BitVec 12) (s : State) : Result := checkExtent s base len (digitsOnly (· == 8))

/-- `VAL.UPCA base, len` (45 R217). -/
def execValUpca (base len : BitVec 12) (s : State) : Result := checkExtent s base len (digitsOnly (· == 12))

/-- The checks of 44 R191 without the writes (45 R218). -/
def checkUpce (bytes : List Byte) : Except FailCode Word :=
  match parseUpce bytes with
  | .error e => .error e
  | .ok _ => .ok 1

/-- `VAL.UPCE base, len` (45 R218). -/
def execValUpce (base len : BitVec 12) (s : State) : Result := checkExtent s base len checkUpce

/-- `VAL.C39 base, len` (45 R219): no length check. -/
def execValC39 (base len : BitVec 12) (s : State) : Result := checkExtent s base len (checkAlphabet unitConfig.alpha39)

/-- `VAL.ITF base, len` (45 R220): an even number of digits, 0 among them. -/
def execValItf (base len : BitVec 12) (s : State) : Result := checkExtent s base len (digitsOnly (fun n => n % 2 == 0))

/-- Non-empty, then the alphabet (45 R221). -/
def checkCodabar (alpha : Byte → Bool) (bytes : List Byte) : Except FailCode Word :=
  if bytes = [] then .error .eShape else checkAlphabet alpha bytes

/-- `VAL.CBAR base, len` (45 R221). -/
def execValCbar (base len : BitVec 12) (s : State) : Result := checkExtent s base len (checkCodabar unitConfig.alphaCB)

/-- `VAL.C93 base, len` (45 R222). -/
def execValC93 (base len : BitVec 12) (s : State) : Result := checkExtent s base len (discard (sequence93 unitConfig) 2)

end Sys2Proof.Machine
end

