-- ==== Sys2Proof/Machine/Dispatch.lean ====
section
/-! DEFINITION. The dispatch: one arm per command of spec 30 R86. -/

namespace Sys2Proof.Machine

def exec (i : Instr) (s : State) : Host.Outcome State Fault Refusal :=
  match i with
  -- control (47 R266 to R268)
  | .nop => Sys2Proof.Machine.execNop s
  | .srst => Sys2Proof.Machine.execSrst s
  | .csrRd idx => Sys2Proof.Machine.execCsrRd idx s
  -- data buffer (47 R270 to R272)
  | .dClr => Sys2Proof.Machine.execDClr s
  | .dPush b => Sys2Proof.Machine.execDPush b s
  | .dRd idx => Sys2Proof.Machine.execDRd idx s
  -- value buffer (47 R274 to R276)
  | .vClr => Sys2Proof.Machine.execVClr s
  | .vPush b => Sys2Proof.Machine.execVPush b s
  | .vRd idx => Sys2Proof.Machine.execVRd idx s
  -- GF(256) (40 R115, R117, R118)
  | .gfMul a b => Sys2Proof.Machine.execGfMul a b s
  | .gfExp e => Sys2Proof.Machine.execGfExp e s
  | .gfLog a => Sys2Proof.Machine.execGfLog a s
  -- Reed-Solomon (41 R132 to R139)
  | .rsGen n => Sys2Proof.Machine.execRsGen n s
  | .rsClr => Sys2Proof.Machine.execRsClr s
  | .rsFeed d => Sys2Proof.Machine.execRsFeed d s
  | .rsEnc base len => Sys2Proof.Machine.execRsEnc base len s
  | .rsRd idx => Sys2Proof.Machine.execRsRd idx s
  | .rsGrd idx => Sys2Proof.Machine.execRsGrd idx s
  -- BCH (42 R152, R155)
  | .bchFmt d5 => Sys2Proof.Machine.execBchFmt d5 s
  | .bchVer v => Sys2Proof.Machine.execBchVer v s
  -- Code128, UPC/EAN, Code93 (43 R170, R176; 44 R187, R191, R196, R198; 45 R208, R210)
  | .c128Seq base len => Sys2Proof.Machine.execC128Seq base len s
  | .c128Chk => Sys2Proof.Machine.execC128Chk s
  | .m10Chk => Sys2Proof.Machine.execM10Chk s
  | .upceExp base len => Sys2Proof.Machine.execUpceExp base len s
  | .c93Chk => Sys2Proof.Machine.execC93Chk s
  | .parEan13 d => Sys2Proof.Machine.execParEan13 d s
  | .parUpce d => Sys2Proof.Machine.execParUpce d s
  | .c93Seq base len => Sys2Proof.Machine.execC93Seq base len s
  -- the nine validators (45 R214 to R222)
  | .valC128 base len => Sys2Proof.Machine.execValC128 base len s
  | .valEan13 base len => Sys2Proof.Machine.execValEan13 base len s
  | .valEan8 base len => Sys2Proof.Machine.execValEan8 base len s
  | .valUpca base len => Sys2Proof.Machine.execValUpca base len s
  | .valUpce base len => Sys2Proof.Machine.execValUpce base len s
  | .valC39 base len => Sys2Proof.Machine.execValC39 base len s
  | .valItf base len => Sys2Proof.Machine.execValItf base len s
  | .valCbar base len => Sys2Proof.Machine.execValCbar base len s
  | .valC93 base len => Sys2Proof.Machine.execValC93 base len s
  -- matrix, mask, penalty, best mask (46 R231 to R233, R237, R238, R247, R250, R251)
  | .matInit v => Sys2Proof.Machine.execMatInit v s
  | .matWr row col z => Sys2Proof.Machine.execMatWr row col z s
  | .matRd row col => Sys2Proof.Machine.execMatRd row col s
  | .maskBit id row col => Sys2Proof.Machine.execMaskBit id row col s
  | .maskApply id => Sys2Proof.Machine.execMaskApply id s
  | .penScore => Sys2Proof.Machine.execPenScore s
  | .bestClr => Sys2Proof.Machine.execBestClr s
  | .bestUpd id => Sys2Proof.Machine.execBestUpd id s

end Sys2Proof.Machine
end

