-- ==== Sys2Proof/Machine/Port.lean ====
section
/-! DEFINITION. The command port (spec 30 R80, R81, R91) and the hardware reset (70 R350). -/

namespace Sys2Proof.Machine

/-- The unit accepts a word: decode it, execute the command or fail with the decoder's verdict, give one response (30
R81, R88, R91, R92). -/
def acceptWord (w : Word) (s : State) : Result :=
  match decode w with
  | .error e => fail s e
  | .ok i => exec i s

/-- The unit takes the host's next input. With none pending nothing happens (30 R81: "nothing happens in the unit
between commands"; log 3). -/
def takeInput (s : State) : Result :=
  match s.inputs with
  | [] => .next s
  | .command w :: rest => acceptWord w (s.withInputs rest)
  | .hardReset _ :: rest => .next (s.withInputs rest).hardReset

/-- A command word put in front of the pending inputs, so that the next step takes it (log 1). -/
def presentWord (s : State) (w : Word) : State := s.withInputs (.command w :: s.inputs)

end Sys2Proof.Machine
end

