-- ==== Sys2Proof/Machine/Step.lean ====
section
/-! DEFINITION. One step of the machine (spec 30 R81). -/

namespace Sys2Proof.Machine

/-- One step: the unit takes the host's next input (Machine/Port.lean). -/
def step : State → Host.Outcome State Fault Refusal := takeInput

/-- `s` with the word whose low `nbits` bits are `w`, the bits above zero, as the host's next input (log 1). -/
def State.withFetchWord (s : State) (nbits w : Nat) : State := presentWord s (BitVec.ofNat 32 (w % 2 ^ nbits))

end Sys2Proof.Machine
end

