-- ==== Sys2Proof/Machine/Assembler.lean ====
section
/-! DEFINITION. The host's side of the command port as text: the assembler syntax (spec 30 R94) and the three
pseudo-commands (30 R95), which the unit never sees. Text is a list of characters; what R94 leaves open is in log 21. -/

namespace Sys2Proof.Machine

/-! ## Pseudo-commands (30 R95) -/

/-- `D.LOAD`: `D.CLR`, then one `D.PUSH` per byte. -/
def dLoad (bytes : List Byte) : List Instr := .dClr :: bytes.map .dPush

/-- `V.LOAD`: `V.CLR`, then one `V.PUSH` per value. -/
def vLoad (values : List Byte) : List Instr := .vClr :: values.map .vPush

/-- `MAT.FILL z` for a matrix of side `n`: `MAT.WR r, c, z` in row-major order. -/
def matFill (n : Nat) (z : BitVec 2) : List Instr :=
  (List.range n).flatMap fun r => (List.range n).map fun c => .matWr (BitVec.ofNat 8 r) (BitVec.ofNat 8 c) z

/-! ## Assembler syntax (30 R94) -/

/-- A row of the assembler's table. -/
abbrev AsmRow := String × Byte × List (Nat × Nat)

/-- Mnemonic, opcode, and for each operand its lowest bit and width (30 R86, R87): control and buffers. -/
def asmControl : List AsmRow :=
  [ ("NOP", 0x00, []),
    ("SRST", 0x01, []),
    ("CSR.RD", 0x02, [(0, 12)]),
    ("D.CLR", 0x10, []),
    ("D.PUSH", 0x11, [(0, 8)]),
    ("D.RD", 0x12, [(0, 12)]),
    ("V.CLR", 0x14, []),
    ("V.PUSH", 0x15, [(0, 8)]),
    ("V.RD", 0x16, [(0, 12)]) ]

/-- Mnemonic, opcode, and for each operand its lowest bit and width (30 R86, R87): GF(256), Reed-Solomon, BCH. -/
def asmField : List AsmRow :=
  [ ("GF.MUL", 0x20, [(8, 8), (0, 8)]),
    ("GF.EXP", 0x21, [(0, 8)]),
    ("GF.LOG", 0x22, [(0, 8)]),
    ("RS.GEN", 0x28, [(0, 8)]),
    ("RS.CLR", 0x29, []),
    ("RS.FEED", 0x2A, [(0, 8)]),
    ("RS.ENC", 0x2B, [(12, 12), (0, 12)]),
    ("RS.RD", 0x2C, [(0, 12)]),
    ("RS.GRD", 0x2D, [(0, 12)]),
    ("BCH.FMT", 0x30, [(0, 5)]),
    ("BCH.VER", 0x31, [(0, 6)]) ]

/-- Mnemonic, opcode, and for each operand its lowest bit and width (30 R86, R87): barcodes and validators. -/
def asmBarcode : List AsmRow :=
  [ ("C128.SEQ", 0x40, [(12, 12), (0, 12)]),
    ("C128.CHK", 0x41, []),
    ("M10.CHK", 0x42, []),
    ("UPCE.EXP", 0x43, [(12, 12), (0, 12)]),
    ("C93.CHK", 0x44, []),
    ("PAR.EAN13", 0x45, [(0, 4)]),
    ("PAR.UPCE", 0x46, [(0, 4)]),
    ("C93.SEQ", 0x47, [(12, 12), (0, 12)]),
    ("VAL.C128", 0x48, [(12, 12), (0, 12)]),
    ("VAL.EAN13", 0x49, [(12, 12), (0, 12)]),
    ("VAL.EAN8", 0x4A, [(12, 12), (0, 12)]),
    ("VAL.UPCA", 0x4B, [(12, 12), (0, 12)]),
    ("VAL.UPCE", 0x4C, [(12, 12), (0, 12)]),
    ("VAL.C39", 0x4D, [(12, 12), (0, 12)]),
    ("VAL.ITF", 0x4E, [(12, 12), (0, 12)]),
    ("VAL.CBAR", 0x4F, [(12, 12), (0, 12)]),
    ("VAL.C93", 0x50, [(12, 12), (0, 12)]) ]

/-- Mnemonic, opcode, and for each operand its lowest bit and width (30 R86, R87): matrix, mask, penalty, best mask. -/
def asmMatrix : List AsmRow :=
  [ ("MAT.INIT", 0x60, [(0, 6)]),
    ("MAT.WR", 0x61, [(16, 8), (8, 8), (0, 2)]),
    ("MAT.RD", 0x62, [(8, 8), (0, 8)]),
    ("MASK.BIT", 0x63, [(16, 3), (8, 8), (0, 8)]),
    ("MASK.APPLY", 0x64, [(0, 3)]),
    ("PEN.SCORE", 0x65, []),
    ("BEST.CLR", 0x66, []),
    ("BEST.UPD", 0x67, [(0, 3)]) ]

/-- The assembler's table: the mnemonics of 30 R86. -/
def asmTable : List AsmRow := asmControl ++ asmField ++ asmBarcode ++ asmMatrix

/-- The operand bits of a word; none if an operand does not fit its field or the count is wrong. -/
def placeOperands : List (Nat × Nat) → List Nat → Option Nat
  | [], [] => some 0
  | (lo, width) :: fields, v :: vs =>
    if v < 2 ^ width then (placeOperands fields vs).map (· + v * 2 ^ lo) else none
  | _, _ => none

/-- The command that a mnemonic and its operands name. -/
def assembleCommand (mnemonic : String) (operands : List Nat) : Option Instr :=
  match asmTable.find? (fun row => row.1 == mnemonic) with
  | none => none
  | some row =>
    match placeOperands row.2.2 operands with
    | none => none
    | some v =>
      match decode (BitVec.ofNat 32 (row.2.1.toNat * 2 ^ 24 + v)) with
      | .ok i => some i
      | .error _ => none

/-- The value of a hexadecimal digit. -/
def hexDigit (ch : Char) : Option Nat :=
  if '0' ≤ ch ∧ ch ≤ '9' then some (ch.toNat - 48)
  else if 'a' ≤ ch ∧ ch ≤ 'f' then some (ch.toNat - 87)
  else if 'A' ≤ ch ∧ ch ≤ 'F' then some (ch.toNat - 55)
  else none

/-- Digits in a base, most significant first, `acc` what the earlier digits made. -/
def digitsFrom (base acc : Nat) : List Char → Option Nat
  | [] => some acc
  | ch :: rest =>
    match hexDigit ch with
    | none => none
    | some d => if d < base then digitsFrom base (acc * base + d) rest else none

/-- A non-empty numeral in a base. -/
def numeral (base : Nat) (text : List Char) : Option Nat := if text = [] then none else digitsFrom base 0 text

/-- An operand: a character in single quotes, a `0x`, `0b` or decimal numeral (30 R94). -/
def parseOperand : List Char → Option Nat
  | ['\'', ch, '\''] => if ch.toNat < 128 then some ch.toNat else none
  | '0' :: 'x' :: rest => numeral 16 rest
  | '0' :: 'b' :: rest => numeral 2 rest
  | text => numeral 10 text

/-- Drop a comment, from a `#` outside quotes to the end of the line (30 R94; log 21 for the quotes). -/
def stripComment (inString : Bool) : List Char → List Char
  | [] => []
  | '\'' :: ch :: '\'' :: rest => '\'' :: ch :: '\'' :: stripComment inString rest
  | ch :: rest =>
    if ch = '#' ∧ inString = false then []
    else ch :: stripComment (if ch = '"' then !inString else inString) rest

/-- Drop spaces at both ends. -/
def trimSpaces (text : List Char) : List Char :=
  ((text.dropWhile (· == ' ')).reverse.dropWhile (· == ' ')).reverse

/-- Split at the commas outside single quotes; `acc` is the piece at hand, backwards. -/
def splitOperands (acc : List Char) : List Char → List (List Char)
  | [] => [acc.reverse]
  | '\'' :: ch :: '\'' :: rest => splitOperands ('\'' :: ch :: '\'' :: acc) rest
  | ch :: rest => if ch = ',' then acc.reverse :: splitOperands [] rest else splitOperands (ch :: acc) rest

/-- The operands of a line. -/
def parseOperands (text : List Char) : Option (List Nat) :=
  if text = [] then some [] else (splitOperands [] text).mapM fun piece => parseOperand (trimSpaces piece)

/-- The bytes of a quoted string after its opening quote; `\\xHH` is the byte `0xHH` (30 R95). -/
def stringBytes : List Char → Option (List Byte)
  | ['"'] => some []
  | '\\' :: 'x' :: h :: l :: rest =>
    match hexDigit h, hexDigit l with
    | some a, some b => (stringBytes rest).map (BitVec.ofNat 8 (16 * a + b) :: ·)
    | _, _ => none
  | ch :: rest =>
    if ch = '"' ∨ 128 ≤ ch.toNat then none else (stringBytes rest).map (BitVec.ofNat 8 ch.toNat :: ·)
  | [] => none

/-- The commands of one line of assembler text; none if the line is malformed. `side` is the matrix side that `MAT.FILL`
needs, the one the preceding `MAT.INIT` set (30 R95). -/
def assembleLine (side : Nat) (line : List Char) : Option (List Instr) :=
  let text := trimSpaces (stripComment false line)
  if text = [] then some []
  else
    let mnemonic := String.ofList (text.takeWhile (· != ' '))
    let rest := trimSpaces (text.dropWhile (· != ' '))
    if mnemonic == "D.LOAD" then
      match rest with
      | '"' :: body => (stringBytes body).map dLoad
      | _ => none
    else
      match parseOperands rest with
      | none => none
      | some ops =>
        if mnemonic == "V.LOAD" then
          if ops ≠ [] ∧ ops.all (· < 256) then some (vLoad (ops.map (BitVec.ofNat 8))) else none
        else if mnemonic == "MAT.FILL" then
          match ops with
          | [z] => if z < 4 then some (matFill side (BitVec.ofNat 2 z)) else none
          | _ => none
        else (assembleCommand mnemonic ops).map fun i => [i]

end Sys2Proof.Machine
end

