-- ==== Sys2Proof/Safety.lean ====
section
/-! DEFINITION. What claims about the unit are stated in: the states that commands can make (the invariants), the states
that no command can tell apart (spec 10 R50), and runs of several commands. -/

namespace Sys2Proof.Machine

/-- The ROM holds the tables of 40 R111 and R112 (10 R26). -/
abbrev State.romOk (s : State) : Prop := s.expRom = expTable ∧ s.logRom = logTable

/-- The shape of a state that commands can make: constant ROM (10 R26), every memory in its canonical form and inside its
space (20 R60), every fill pointer and count in its range (10 R20), and no cell that is reserved but unset (46 R233). -/
structure State.Inv (s : State) : Prop where
  rom : s.romOk
  dbuf_wf : Memory.wf blankByte s.dbuf
  dbuf_within : Memory.within dbufSize s.dbuf
  dlen_le : s.dlen.toNat ≤ dbufSize
  vbuf_wf : Memory.wf blankByte s.vbuf
  vbuf_within : Memory.within vbufSize s.vbuf
  vlen_le : s.vlen.toNat ≤ vbufSize
  rsN_le : s.rsN.toNat ≤ unitConfig.rsNMax
  rsGen_wf : Memory.wf blankByte s.rsGen
  rsGen_within : Memory.within (unitConfig.rsNMax + 1) s.rsGen
  rsRem_wf : Memory.wf blankByte s.rsRem
  rsRem_within : Memory.within unitConfig.rsNMax s.rsRem
  matVer_le : s.matVer.toNat ≤ 40
  mat_wf : Memory.wf blankCell s.mat
  mat_within : Memory.within (matMax * matMax) s.mat
  mat_set : ∀ x ∈ s.mat, x.2.st ≠ .unset

/-- `RS_GEN` holds the generator polynomial of `RS_N` whenever one is set up (10 R30). -/
def State.GenInv (s : State) : Prop :=
  s.rsN ≠ 0 → s.generator = generatorPoly (gfMul expTable logTable) (expAt expTable) s.rsN.toNat

/-- `PEN_VALID` = 1 says that the penalty registers describe the current contents of `MAT` (10 R42, 46 R246). -/
def State.PenInv (s : State) : Prop :=
  s.penValid = true →
    s.matVer ≠ 0 ∧
    (∀ row ∈ s.square, ∀ x ∈ row, x.st ≠ .unset) ∧
    s.penA = natWord (penaltyA (darkRows s.square)) ∧
    s.penB = natWord (penaltyB (darkRows s.square)) ∧
    s.penC = natWord (penaltyC unitConfig (darkRows s.square)) ∧
    s.penD = natWord (penaltyD (darkRows s.square)) ∧
    s.penTotal = s.penA + s.penB + s.penC + s.penD

/-- Two states that agree on everything that 10 R50 lets a command observe: the ROM, the contents of the buffers up to
their fill pointers, the Reed-Solomon registers up to `RS_N`, the cells of the square, the valid bits, and the penalty
and best registers where they are valid. The host's inputs and the responses given are no part of it. -/
structure State.ObsEq (s t : State) : Prop where
  rom : s.expRom = t.expRom ∧ s.logRom = t.logRom
  dlen : s.dlen = t.dlen
  data : ∀ i, i < s.dlen.toNat → s.dataAt i = t.dataAt i
  vlen : s.vlen = t.vlen
  value : ∀ i, i < s.vlen.toNat → s.valueAt i = t.valueAt i
  rsN : s.rsN = t.rsN
  gen : s.rsN ≠ 0 → ∀ i, i ≤ s.rsN.toNat → s.genAt i = t.genAt i
  rem : ∀ i, i < s.rsN.toNat → s.remAt i = t.remAt i
  matVer : s.matVer = t.matVer
  cell : ∀ r c, r < s.side → c < s.side → s.cell r c = t.cell r c
  penValid : s.penValid = t.penValid
  pen : s.penValid = true →
    s.penA = t.penA ∧ s.penB = t.penB ∧ s.penC = t.penC ∧ s.penD = t.penD ∧ s.penTotal = t.penTotal
  bestValid : s.bestValid = t.bestValid
  best : s.bestValid = true → s.bestId = t.bestId ∧ s.bestPen = t.bestPen

/-- The unit's own state: everything but the model's two fields is the same. -/
def State.sameUnit (s t : State) : Prop := t = { s with inputs := t.inputs, responses := t.responses }

/-- What a command adds to the responses given: exactly one (30 R81). -/
def State.answered (s t : State) (r : Response) : Prop := t.responses = r :: s.responses ∧ t.inputs = s.inputs

/-- A run of commands one after the other, as the host presents them (20 R71); none of them stops the unit. -/
def runCommands : List Instr → State → Option State
  | [], s => some s
  | i :: rest, s =>
    match exec i s with
    | .next t => runCommands rest t
    | .fault _ => none
    | .refused _ => none

/-- A run of command words. -/
def runWords : List Word → State → Option State
  | [], s => some s
  | w :: rest, s =>
    match acceptWord w s with
    | .next t => runWords rest t
    | .fault _ => none
    | .refused _ => none

/-- A safe step (93 Part 1: "Nothing in the unit is stuck and nothing is refuse"): the unit goes on. -/
def safeStep (s : State) : Prop := ∃ t, step s = .next t

end Sys2Proof.Machine
end

