-- ==== Sys2Proof/Certificates/Slice0/Obligations.lean ====
section
/-! DEFINITION. The statements for the provers. The helpers of `Sys2Proof.Claims` say in their own way what the spec's
rules say, mostly over integers and indices, so that a statement does not repeat the definition it is about. -/

open Sys2Proof Sys2Proof.Machine

namespace Sys2Proof.Claims

/-! ## Words -/

/-- A command's word: of the words with opcode byte `op`, those with a must-be-zero bit set are refused with `E_FIELD`,
every other one is the command `build` makes (30 R85, R87, R88). -/
def decodesAs (op : Byte) (mustBeZero : Word) (build : Word → Instr) : Prop :=
  ∀ w : Word, w.extractLsb' 24 8 = op → decode w = if w &&& mustBeZero = 0 then .ok (build w) else .error .eField

/-- `match` and `mask` of the 45 rows of spec/opcode_table.json (30 R86). -/
def opcodeRows : List (Word × Word) :=
  [(0x00000000, 0xFFFFFFFF), (0x01000000, 0xFFFFFFFF), (0x02000000, 0xFFFFF000), (0x10000000, 0xFFFFFFFF), (0x11000000, 0xFFFFFF00)] ++
  [(0x12000000, 0xFFFFF000), (0x14000000, 0xFFFFFFFF), (0x15000000, 0xFFFFFF00), (0x16000000, 0xFFFFF000), (0x20000000, 0xFFFF0000)] ++
  [(0x21000000, 0xFFFFFF00), (0x22000000, 0xFFFFFF00), (0x28000000, 0xFFFFFF00), (0x29000000, 0xFFFFFFFF), (0x2A000000, 0xFFFFFF00)] ++
  [(0x2B000000, 0xFF000000), (0x2C000000, 0xFFFFF000), (0x2D000000, 0xFFFFF000), (0x30000000, 0xFFFFFFE0), (0x31000000, 0xFFFFFFC0)] ++
  [(0x40000000, 0xFF000000), (0x41000000, 0xFFFFFFFF), (0x42000000, 0xFFFFFFFF), (0x43000000, 0xFF000000), (0x44000000, 0xFFFFFFFF)] ++
  [(0x45000000, 0xFFFFFFF0), (0x46000000, 0xFFFFFFF0), (0x47000000, 0xFF000000), (0x48000000, 0xFF000000), (0x49000000, 0xFF000000)] ++
  [(0x4A000000, 0xFF000000), (0x4B000000, 0xFF000000), (0x4C000000, 0xFF000000), (0x4D000000, 0xFF000000), (0x4E000000, 0xFF000000)] ++
  [(0x4F000000, 0xFF000000), (0x50000000, 0xFF000000), (0x60000000, 0xFFFFFFC0), (0x61000000, 0xFF0000FC), (0x62000000, 0xFFFF0000)] ++
  [(0x63000000, 0xFFF80000), (0x64000000, 0xFFFFFFF8), (0x65000000, 0xFFFFFFFF), (0x66000000, 0xFFFFFFFF), (0x67000000, 0xFFFFFFF8)]

/-- The 211 opcode bytes that 30 R92 lists as illegal. -/
def illegalByte (b : Nat) : Bool :=
  (0x03 ≤ b && b ≤ 0x0F) || b == 0x13 || (0x17 ≤ b && b ≤ 0x1F) || (0x23 ≤ b && b ≤ 0x27) || b == 0x2E || b == 0x2F ||
    (0x32 ≤ b && b ≤ 0x3F) || (0x51 ≤ b && b ≤ 0x5F) || 0x68 ≤ b

/-! ## Responses -/

/-- `s` with the response `FAIL(c)` given and nothing else changed (60 R322). -/
def failed (s : State) (c : FailCode) : State := { s with responses := .fail c :: s.responses }

/-- `s` with the response `OK(v)` given and nothing else changed. -/
def gave (s : State) (v : Nat) : State := { s with responses := .ok (BitVec.ofNat 32 v) :: s.responses }

/-- The bytes of an extent as integers, ascending (47 R280). -/
def bytesOf (s : State) (base len : BitVec 12) : List Byte :=
  (List.range len.toNat).map fun p => s.dataAt (base.toNat + p)

/-- A byte in 48..57 (00 R17). -/
def digitByte (b : Byte) : Prop := 48 ≤ b.toNat ∧ b.toNat ≤ 57

/-- The register map of 10 R44 with `FLAGS` of 10 R45 and `IDENT` of 10 R46, as integers. -/
def csrTable (s : State) : List Nat :=
  [s.dlen.toNat, s.vlen.toNat, s.rsN.toNat, s.matVer.toNat, if s.matVer.toNat = 0 then 0 else 4 * s.matVer.toNat + 17,
    s.penA.toNat, s.penB.toNat, s.penC.toNat, s.penD.toNat, s.penTotal.toNat, s.bestId.toNat, s.bestPen.toNat,
    (if s.rsN.toNat = 0 then 0 else 1) + (if s.matVer.toNat = 0 then 0 else 2) + (if s.penValid then 4 else 0) +
      (if s.bestValid then 8 else 0), 0x011D0100]

/-! ## GF(256) -/

/-- `α^i` by doubling from 1 (10 R24). -/
def alphaPow (i : Nat) : Byte := xtime^[i] 1

/-- The shift-and-add product modulo `0x11D`: the carry-less product, then the reduction from bit 14 down to bit 8
(40 R116). -/
def shiftAndAdd (a b : Byte) : Byte :=
  let p := ((List.range 8).map fun i => if b.getLsbD i then a.toNat <<< i else 0).foldr (· ^^^ ·) 0
  BitVec.ofNat 8 ([14, 13, 12, 11, 10, 9, 8].foldl (fun p i => if p.testBit i then p ^^^ (0x11D <<< (i - 8)) else p) p)

/-! ## Polynomials over GF(256), coefficients in descending degree (00 R16) -/

/-- The product of two polynomials, the second not empty: shift and add. -/
def polyMul (mul : Byte → Byte → Byte) : List Byte → List Byte → List Byte
  | [], g => List.replicate (g.length - 1) 0
  | f :: fs, g =>
    List.zipWith (· ^^^ ·) (g.map (fun k => mul k f) ++ List.replicate fs.length 0) (0 :: polyMul mul fs g)

/-- `(x + α^0)(x + α^1)···(x + α^(n-1))` (41 R131). -/
def linearFactors (mul : Byte → Byte → Byte) (n : Nat) : List Byte :=
  (List.range n).foldl (fun g i => polyMul mul g [1, alphaPow i]) [1]

/-! ## BCH -/

/-- The results of 42 R153, by the data word. -/
def formatTable : List Nat :=
  [0x5412, 0x5125, 0x5E7C, 0x5B4B, 0x45F9, 0x40CE, 0x4F97, 0x4AA0, 0x77C4, 0x72F3,
   0x7DAA, 0x789D, 0x662F, 0x6318, 0x6C41, 0x6976, 0x1689, 0x13BE, 0x1CE7, 0x19D0,
   0x0762, 0x0255, 0x0D0C, 0x083B, 0x355F, 0x3068, 0x3F31, 0x3A06, 0x24B4, 0x2183,
   0x2EDA, 0x2BED]

/-- The results of 42 R156, by the version from 7 on. -/
def versionTable : List Nat :=
  [0x07C94, 0x085BC, 0x09A99, 0x0A4D3, 0x0BBF6, 0x0C762, 0x0D847, 0x0E60D, 0x0F928, 0x10B78,
   0x1145D, 0x12A17, 0x13532, 0x149A6, 0x15683, 0x168C9, 0x177EC, 0x18EC4, 0x191E1, 0x1AFAB,
   0x1B08E, 0x1CC1A, 0x1D33F, 0x1ED75, 0x1F250, 0x209D5, 0x216F0, 0x228BA, 0x2379F, 0x24B0B,
   0x2542E, 0x26A64, 0x27541, 0x28C69]

/-- In how many of 18 bit positions two words differ. -/
def distance (a b : Nat) : Nat := (List.range 18).countP fun i => a.testBit i != b.testBit i

/-! ## Sequencers and checksums -/

/-- The start value of the code set with letter `set` (43 R167). -/
def startValue (set : Byte) : Byte := if set = 65 then 103 else if set = 66 then 104 else 105

/-- The value that switches to the code set with letter `set` (43 R167). -/
def switchValue (set : Byte) : Byte := if set = 65 then 101 else if set = 66 then 100 else 99

/-- The `while` loop of 43 R170 with its index `p`, active set and output so far; `fuel` more than the bytes left. -/
def loop128 (s : List Byte) : Nat → Nat → Byte → List Byte → Except FailCode (List Byte)
  | 0, _, _, out => .ok out
  | fuel + 1, p, set, out =>
    let ch := s.getD p 0
    let e := s.getD (p + 1) 0
    if s.length ≤ p then .ok out
    else if ch = 123 ∧ s.length ≤ p + 1 then .error .eEsc
    else if ch = 123 ∧ (e = 65 ∨ e = 66 ∨ e = 67) then
      if e = set then .error .eEsc else loop128 s fuel (p + 2) e (out ++ [switchValue e])
    else if ch = 123 ∧ e ≠ 123 then .error .eEsc
    else
      let used := if ch = 123 then 2 else 1
      if set = 65 then
        if ch.toNat ≤ 31 then loop128 s fuel (p + used) set (out ++ [ch + 64])
        else if ch.toNat ≤ 95 then loop128 s fuel (p + used) set (out ++ [ch - 32])
        else .error .eChar
      else if set = 66 then
        if 32 ≤ ch.toNat ∧ ch.toNat ≤ 127 then loop128 s fuel (p + used) set (out ++ [ch - 32]) else .error .eChar
      else if ch = 123 then .error .eChar
      else if s.length ≤ p + 1 then .error .eChar
      else if ch.toNat < 48 ∨ 57 < ch.toNat ∨ e.toNat < 48 ∨ 57 < e.toNat then .error .eChar
      else loop128 s fuel (p + 2) set (out ++ [BitVec.ofNat 8 (10 * (ch.toNat - 48) + (e.toNat - 48))])

/-- The algorithm of 43 R170 on an input of any length, after the bounds check. -/
def sequence128Of (s : List Byte) : Except FailCode (List Byte) :=
  if s.length = 0 then .error .eShape
  else if 2 ≤ s.length ∧ s.getD 0 0 = 123 ∧ (s.getD 1 0 = 65 ∨ s.getD 1 0 = 66 ∨ s.getD 1 0 = 67) then
    loop128 s (s.length + 1) 2 (s.getD 1 0) [startValue (s.getD 1 0)]
  else loop128 s (s.length + 1) 0 66 [startValue 66]

/-- The values in a buffer as integers, by index. -/
def valueNat (s : State) (i : Nat) : Nat := (s.valueAt i).toNat

/-- `acc mod 103` of 43 R176. -/
def code128Check (s : State) : Nat :=
  (valueNat s 0 + ((List.range (s.vlen.toNat - 1)).map fun i => valueNat s (i + 1) * (i + 1)).sum) % 103

/-- `MOD10` of 44 R186 on `m` digits by index, `k` counting from the right end. -/
def mod10Of (m : Nat) (d : Nat → Nat) : Nat :=
  (10 - ((List.range m).map fun k => (if k % 2 = 0 then 3 else 1) * d (m - 1 - k)).sum % 10) % 10

/-- `C` of 45 R210. -/
def code93C (s : State) : Nat :=
  ((List.range s.vlen.toNat).map fun i => valueNat s i * ((s.vlen.toNat - 1 - i) % 20 + 1)).sum % 47

/-- `K` of 45 R210: `C` is the last element, with weight 1. -/
def code93K (s : State) : Nat :=
  (((List.range s.vlen.toNat).map fun i => valueNat s i * ((s.vlen.toNat - i) % 15 + 1)).sum + code93C s) % 47

/-- The 43 input symbols of 45 R207 in the order of their values, as ASCII codes. -/
def code93Symbols : List Nat :=
  [48, 49, 50, 51, 52, 53, 54, 55, 56, 57, 65, 66, 67, 68, 69, 70, 71, 72, 73, 74, 75, 76, 77, 78, 79, 80, 81, 82, 83, 84,
    85, 86, 87, 88, 89, 90, 45, 46, 32, 36, 47, 43, 37]

/-- The 20 characters of 45 R221, as ASCII codes. -/
def codabarSymbols : List Nat :=
  [48, 49, 50, 51, 52, 53, 54, 55, 56, 57, 45, 36, 58, 47, 46, 43, 65, 66, 67, 68]

/-- A byte's code after case folding (00 R17). -/
def folded (b : Byte) : Nat := if 97 ≤ b.toNat ∧ b.toNat ≤ 122 then b.toNat - 32 else b.toNat

/-- The 11 digits of 44 R192. -/
def expand11 (ns d1 d2 d3 d4 d5 d6 : Nat) : List Nat :=
  if d6 = 0 ∨ d6 = 1 ∨ d6 = 2 then [ns, d1, d2, d6, 0, 0, 0, 0, d3, d4, d5]
  else if d6 = 3 then [ns, d1, d2, d3, 0, 0, 0, 0, 0, d4, d5]
  else if d6 = 4 then [ns, d1, d2, d3, d4, 0, 0, 0, 0, 0, d5]
  else [ns, d1, d2, d3, d4, d5, 0, 0, 0, 0, d6]

/-- The algorithm of 44 R191 after the bounds check: the 12 digits and the check digit. -/
def expandUpce (s : List Byte) : Except FailCode (List Nat × Nat) :=
  let d := fun k => (s.getD k 0).toNat - 48
  let o := if s.length = 6 then 0 else 1
  let ns := if s.length = 6 then 0 else d 0
  let a := expand11 ns (d o) (d (o + 1)) (d (o + 2)) (d (o + 3)) (d (o + 4)) (d (o + 5))
  let chk := if s.length = 8 then d 7 else mod10Of 11 fun k => a.getD k 0
  if s.length ≠ 6 ∧ s.length ≠ 7 ∧ s.length ≠ 8 then .error .eShape
  else if s.any fun b => b.toNat < 48 || 57 < b.toNat then .error .eChar
  else if 1 < ns then .error .eChar
  else .ok (a ++ [chk], chk)

/-! ## Matrix -/

/-- `MAT_SIZE` of 10 R41. -/
def sideNat (s : State) : Nat := if s.matVer.toNat = 0 then 0 else 4 * s.matVer.toNat + 17

/-- A cell as the integer of 46 R233. -/
def cellNat (x : MatCell) : Nat :=
  (if x.st = .unset then 0 else 4) + (if x.rsv then 2 else 0) + (if x.st = .dark then 1 else 0)

/-- The eight formulas of 46 R236. -/
def maskFormula (id r c : Nat) : Prop :=
  (id = 0 ∧ (r + c) % 2 = 0) ∨ (id = 1 ∧ r % 2 = 0) ∨ (id = 2 ∧ c % 3 = 0) ∨ (id = 3 ∧ (r + c) % 3 = 0) ∨
    (id = 4 ∧ (r / 2 + c / 3) % 2 = 0) ∨ (id = 5 ∧ (r * c) % 2 + (r * c) % 3 = 0) ∨
    (id = 6 ∧ ((r * c) % 2 + (r * c) % 3) % 2 = 0) ∨ (id = 7 ∧ ((r + c) % 2 + (r * c) % 3) % 2 = 0)

/-- Every unreserved cell of the square is set (46 R238). -/
def dataSet (s : State) : Prop :=
  ∀ r c, r < sideNat s → c < sideNat s → (s.cell r c).rsv = false → (s.cell r c).st ≠ .unset

/-- Every cell of the square is set (46 R247). -/
def allSet (s : State) : Prop := ∀ r c, r < sideNat s → c < sideNat s → (s.cell r c).st ≠ .unset

/-- `dark(r, c)` of 46. -/
def darkAt (s : State) (r c : Nat) : Bool := (s.cell r c).st = .dark

/-- The 2·S lines of 46 R240. -/
def matrixLines (s : State) : List (List Bool) :=
  ((List.range (sideNat s)).map fun r => (List.range (sideNat s)).map fun c => darkAt s r c) ++
    ((List.range (sideNat s)).map fun c => (List.range (sideNat s)).map fun r => darkAt s r c)

/-- Rule (a) of 46 R241: the line split into maximal runs. -/
def scoreA (s : State) : Nat :=
  ((matrixLines s).map fun ln =>
    ((ln.splitBy (· == ·)).map fun run => if 5 ≤ run.length then run.length - 2 else 0).sum).sum

/-- Rule (b) of 46 R242: the positions whose four cells have one colour. -/
def scoreB (s : State) : Nat :=
  3 * (coords (sideNat s - 1)).countP fun p =>
    darkAt s p.1 p.2 == darkAt s p.1 (p.2 + 1) && darkAt s p.1 p.2 == darkAt s (p.1 + 1) p.2 &&
      darkAt s p.1 p.2 == darkAt s (p.1 + 1) (p.2 + 1)

/-- `PEN_TMPL_A` of 46 R244. -/
def templateA : List Bool := [true, false, true, true, true, false, true, false, false, false, false]

/-- `PEN_TMPL_B` of 46 R244. -/
def templateB : List Bool := [false, false, false, false, true, false, true, true, true, false, true]

/-- Rule (c) of 46 R243: the windows `ln[k .. k + 11)`, `0 <= k <= S - 11`. -/
def scoreC (s : State) : Nat :=
  40 * ((matrixLines s).map fun ln =>
    (List.range (sideNat s - 10)).countP fun k =>
      (ln.drop k).take 11 == templateA || (ln.drop k).take 11 == templateB).sum

/-- Rule (d) of 46 R245. -/
def scoreD (s : State) : Nat :=
  let dark := (coords (sideNat s)).countP fun p => darkAt s p.1 p.2
  let lower : Int := ((dark * 20 / (sideNat s * sideNat s)) * 5 : Nat)
  10 * min ((lower - 50).natAbs / 5) ((lower + 5 - 50).natAbs / 5)

/-- The scores `p` offered as candidates `id` one after the other, each by `BEST.UPD` on a valid score (46 R252). -/
def offerAll : List (BitVec 3 × BitVec 32) → State → Option State
  | [], s => some s
  | (id, p) :: rest, s =>
    match exec (.bestUpd id) { s with penTotal := p, penValid := true } with
    | .next t => offerAll rest t
    | .fault _ => none
    | .refused _ => none

end Sys2Proof.Claims

open Sys2Proof.Claims

/-! ## Encoding -/

/-- Decoding a command's word gives the command back, for every command and every value of its operands. -/
def Obligations.DecodeOfEncodeIsTheCommand : Prop :=
  ∀ i : Instr, decode (encode i) = .ok i

/-- Every word that decodes is the one word of the command it decodes to. -/
def Obligations.EncodeOfDecodeIsTheWord : Prop :=
  ∀ (w : Word) (i : Instr), decode w = .ok i → encode i = w

/-- The words that decode are exactly those that match a row of the opcode table under its mask. -/
def Obligations.DecodableWordsAreTheTablesWords : Prop :=
  ∀ w : Word, (∃ i, decode w = .ok i) ↔ ∃ row ∈ opcodeRows, w &&& row.2 = row.1

/-- Words that the spec prints with their commands, one or more per family: most in 95 section 2.1, `V.RD 9` and `C128.SEQ
1, 9` in 95 section 12 (program P2), `PAR.UPCE 4` in 44 R198 and program P3. -/
def Obligations.PrintedWordsDecodeToTheirCommands : Prop :=
  decode 0x00000000 = .ok .nop ∧ decode 0x0200000D = .ok (.csrRd 13) ∧ decode 0x1100007B = .ok (.dPush 0x7B) ∧
    decode 0x16000009 = .ok (.vRd 9) ∧ decode 0x2000571D = .ok (.gfMul 0x57 0x1D) ∧
    decode 0x2B003005 = .ok (.rsEnc 3 5) ∧ decode 0x31000028 = .ok (.bchVer 40) ∧
    decode 0x40001009 = .ok (.c128Seq 1 9) ∧ decode 0x46000004 = .ok (.parUpce 4) ∧
    decode 0x50FFFFFF = .ok (.valC93 4095 4095) ∧ decode 0x61060803 = .ok (.matWr 6 8 3) ∧
    decode 0x63050304 = .ok (.maskBit 5 3 4) ∧ decode 0x67000007 = .ok (.bestUpd 7)

/-! ## The step and the whole machine -/

/-- A step takes the host's next word; where it decodes to a command, the step is that command's execution, with the
input taken. -/
def Obligations.StepRunsTheDecodedCommand : Prop :=
  ∀ (s : State) (w : Word) (rest : List HostInput) (i : Instr),
    s.inputs = .command w :: rest → decode w = .ok i → step s = exec i { s with inputs := rest }

/-- A word with an illegal opcode byte fails with `E_OPCODE` and changes nothing, whatever its other bits; there are 211
such bytes, and every word with another byte decodes to a command or is refused for its must-be-zero bits alone. -/
def Obligations.IllegalOpcodeBytesFail : Prop :=
  ((List.range 256).countP illegalByte = 211) ∧
    ∀ (s : State) (w : Word) (rest : List HostInput), s.inputs = .command w :: rest →
      if illegalByte (w.extractLsb' 24 8).toNat then step s = .next (failed { s with inputs := rest } .eOpcode)
      else (∃ i, decode w = .ok i) ∨ decode w = .error .eField

/-- A word with a legal opcode byte and a must-be-zero bit set fails with `E_FIELD` and changes nothing. -/
def Obligations.MustBeZeroBitsFail : Prop :=
  ∀ (s : State) (w : Word) (rest : List HostInput), s.inputs = .command w :: rest →
    ∀ row ∈ opcodeRows, w.extractLsb' 24 8 = row.1.extractLsb' 24 8 → w &&& row.2 ≠ row.1 →
      step s = .next (failed { s with inputs := rest } .eField)

/-- Every step of every state goes on, and a step that takes a command word gives exactly one response. -/
def Obligations.EveryStepGoesOnWithOneResponse : Prop :=
  (∀ s : State, safeStep s) ∧
    ∀ (s : State) (w : Word) (rest : List HostInput), s.inputs = .command w :: rest →
      ∃ t r, step s = .next t ∧ t.inputs = rest ∧ t.responses = r :: s.responses

/-- A command word that fails changes no state: the state after it is the state before it with the failure given. -/
def Obligations.FailingWordChangesNothing : Prop :=
  ∀ (w : Word) (s t : State) (c : FailCode),
    acceptWord w s = .next t → t.responses = .fail c :: s.responses → t = failed s c

/-- Who may write what: a command leaves every piece of state alone that it does not own, takes no input, and adds one
response. -/
def Obligations.StateIsWrittenOnlyByItsOwners : Prop :=
  ∀ (i : Instr) (s t : State), exec i s = .next t →
    t.expRom = s.expRom ∧ t.logRom = s.logRom ∧
    (match i with | .dPush _ => True | _ => t.dbuf = s.dbuf) ∧
    (match i with | .dClr | .dPush _ | .srst => True | _ => t.dlen = s.dlen) ∧
    (match i with | .vPush _ | .c128Seq _ _ | .c93Seq _ _ | .upceExp _ _ => True | _ => t.vbuf = s.vbuf) ∧
    (match i with
      | .vClr | .vPush _ | .c128Seq _ _ | .c93Seq _ _ | .upceExp _ _ | .srst => True
      | _ => t.vlen = s.vlen) ∧
    (match i with | .rsGen _ | .srst => True | _ => t.rsN = s.rsN) ∧
    (match i with | .rsGen _ => True | _ => t.rsGen = s.rsGen) ∧
    (match i with | .rsGen _ | .rsClr | .rsFeed _ | .rsEnc _ _ => True | _ => t.rsRem = s.rsRem) ∧
    (match i with | .matInit _ | .srst => True | _ => t.matVer = s.matVer) ∧
    (match i with | .matInit _ | .matWr _ _ _ | .maskApply _ => True | _ => t.mat = s.mat) ∧
    (match i with
      | .penScore => True
      | _ => t.penA = s.penA ∧ t.penB = s.penB ∧ t.penC = s.penC ∧ t.penD = s.penD ∧ t.penTotal = s.penTotal) ∧
    (match i with
      | .penScore | .matInit _ | .matWr _ _ _ | .maskApply _ | .srst => True
      | _ => t.penValid = s.penValid) ∧
    (match i with | .bestUpd _ => True | _ => t.bestId = s.bestId ∧ t.bestPen = s.bestPen) ∧
    (match i with | .bestUpd _ | .bestClr | .matInit _ | .srst => True | _ => t.bestValid = s.bestValid) ∧
    t.inputs = s.inputs ∧ ∃ r, t.responses = r :: s.responses

/-- No command observes storage outside the contents: from two states that agree on what 10 R50 lets a command observe,
a word gives the same response and states that agree again. -/
def Obligations.UnobservableStorageIsNeverObserved : Prop :=
  ∀ (w : Word) (s t : State), s.Inv → t.Inv → s.ObsEq t →
    ∃ s' t' r, acceptWord w s = .next s' ∧ acceptWord w t = .next t' ∧ s.answered s' r ∧ t.answered t' r ∧ s'.ObsEq t'

/-- After `SRST` the unit answers every sequence of words as it does after a hardware reset. -/
def Obligations.SoftResetErasesTheHistory : Prop :=
  ∀ (s : State) (ws : List Word), s.Inv →
    ∃ t u rs, runWords (0x01000000 :: ws) s = some t ∧ runWords ws State.reset = some u ∧
      rs.length = ws.length ∧ t.responses = rs ++ .ok 0 :: s.responses ∧ u.responses = rs ∧ t.ObsEq u

/-- The invariants hold at reset. -/
def Obligations.ResetMeetsTheInvariants : Prop :=
  State.reset.Inv ∧ State.reset.GenInv ∧ State.reset.PenInv

/-- Every step keeps the shape of the state: constant ROM, canonical memories inside their spaces, pointers and counts
in range, no cell reserved but unset. -/
def Obligations.StepKeepsTheStateInvariant : Prop :=
  ∀ s t : State, s.Inv → step s = .next t → t.Inv

/-- Every step keeps `RS_GEN` the generator polynomial of `RS_N`. -/
def Obligations.StepKeepsTheGenerator : Prop :=
  ∀ s t : State, s.Inv → s.GenInv → step s = .next t → t.GenInv

/-- Every step keeps a valid score the score of the current matrix. -/
def Obligations.StepKeepsValidScoresCurrent : Prop :=
  ∀ s t : State, s.PenInv → step s = .next t → t.PenInv

/-- What reset leaves, in the values the spec gives: the pointers, counts and valid bits 0, the ROM tables by their
construction, and the registers that `CSR.RD` may read. -/
def Obligations.ResetValues : Prop :=
  State.reset.dlen = 0 ∧ State.reset.vlen = 0 ∧ State.reset.rsN = 0 ∧ State.reset.matVer = 0 ∧
    State.reset.penValid = false ∧ State.reset.bestValid = false ∧
    State.reset.expRom.length = 255 ∧ (∀ i, i < 255 → expAt State.reset.expRom i = alphaPow i) ∧
    State.reset.logRom.length = 255 ∧ (∀ i, i < 255 → (logAt State.reset.logRom (alphaPow i)).toNat = i) ∧
    exec (.csrRd 12) State.reset = .next (gave State.reset 0) ∧
    exec (.csrRd 13) State.reset = .next (gave State.reset 0x011D0100)

/-- What a step does that takes no command word: with no input it leaves the state as it is, and a hardware reset gives
the reset state and no response, the abandoned command's neither. (That the pending inputs and the responses given stay
is the model's choice, log 4; that an idle step changes nothing is log 3.) -/
def Obligations.IdleStepAndHardwareReset : Prop :=
  (∀ s : State, s.inputs = [] → step s = .next s) ∧
    ∀ (s : State) (abandoned : Option Word) (rest : List HostInput), s.inputs = .hardReset abandoned :: rest →
      step s = .next { State.reset with inputs := rest, responses := s.responses }

/-! ## Control and buffers -/

/-- `NOP` is the all-zero word alone and responds 0. -/
def Obligations.NopOnlyResponds : Prop :=
  decodesAs 0x00 0xFFFFFF (fun _ => .nop) ∧ ∀ s : State, exec .nop s = .next (gave s 0)

/-- `SRST` writes six registers and responds 0, and the state after it cannot be told from the state after reset. (That all
other storage stays as it is, the buffers, the Reed-Solomon registers, the matrix, the scores and the best candidate, is
the model's choice, log 7: the spec says that it need not be erased, 47 R267, and leaves its contents open, 10 R51.) -/
def Obligations.SoftResetWritesSixRegisters : Prop :=
  decodesAs 0x01 0xFFFFFF (fun _ => .srst) ∧
    ∀ s : State, ∃ t, exec .srst s = .next t ∧
      t = { gave s 0 with dlen := 0, vlen := 0, rsN := 0, matVer := 0, penValid := false, bestValid := false } ∧
      (s.romOk → t.ObsEq State.reset)

/-- `CSR.RD` responds the register of the table or fails, in the order of its checks, and changes nothing. -/
def Obligations.CsrReadRespondsTheRegister : Prop :=
  decodesAs 0x02 0xFFF000 (fun w => .csrRd (w.extractLsb' 0 12)) ∧
    ∀ (idx : BitVec 12) (s : State), exec (.csrRd idx) s = .next (
      if 13 < idx.toNat then failed s .eArg
      else if 5 ≤ idx.toNat ∧ idx.toNat ≤ 9 ∧ s.penValid = false then failed s .eState
      else if (idx.toNat = 10 ∨ idx.toNat = 11) ∧ s.bestValid = false then failed s .eState
      else gave s ((csrTable s).getD idx.toNat 0))

/-- `D.CLR` and `V.CLR` set their fill pointer to 0, respond 0 and change nothing else. (That the bytes of the emptied
buffer stay as they are is the model's choice, log 7: the spec leaves them open, 93 I1.) -/
def Obligations.BufferClearsEmptyOneBuffer : Prop :=
  decodesAs 0x10 0xFFFFFF (fun _ => .dClr) ∧ decodesAs 0x14 0xFFFFFF (fun _ => .vClr) ∧
    ∀ s : State, exec .dClr s = .next { gave s 0 with dlen := 0 } ∧ exec .vClr s = .next { gave s 0 with vlen := 0 }

/-- `D.PUSH` fails on a full buffer; else it writes one byte at the fill pointer, every other byte as before, raises the
pointer by one and responds it. -/
def Obligations.DataPushAppendsOneByte : Prop :=
  decodesAs 0x11 0xFFFF00 (fun w => .dPush (w.extractLsb' 0 8)) ∧
    ∀ (b : Byte) (s : State), s.Inv →
      if s.dlen.toNat = 4096 then exec (.dPush b) s = .next (failed s .eFull)
      else ∃ t, exec (.dPush b) s = .next t ∧
        t = { gave s (s.dlen.toNat + 1) with dbuf := t.dbuf, dlen := t.dlen } ∧
        t.dlen.toNat = s.dlen.toNat + 1 ∧ t.dataAt s.dlen.toNat = b ∧
        ∀ j, j ≠ s.dlen.toNat → t.dataAt j = s.dataAt j

/-- `V.PUSH`, the same over the value buffer; the value is not range-checked. -/
def Obligations.ValuePushAppendsOneValue : Prop :=
  decodesAs 0x15 0xFFFF00 (fun w => .vPush (w.extractLsb' 0 8)) ∧
    ∀ (b : Byte) (s : State), s.Inv →
      if s.vlen.toNat = 4096 then exec (.vPush b) s = .next (failed s .eFull)
      else ∃ t, exec (.vPush b) s = .next t ∧
        t = { gave s (s.vlen.toNat + 1) with vbuf := t.vbuf, vlen := t.vlen } ∧
        t.vlen.toNat = s.vlen.toNat + 1 ∧ t.valueAt s.vlen.toNat = b ∧
        ∀ j, j ≠ s.vlen.toNat → t.valueAt j = s.valueAt j

/-- `D.RD` and `V.RD` respond the element, or fail outside the contents, and change nothing. -/
def Obligations.BufferReadsRespondTheElement : Prop :=
  decodesAs 0x12 0xFFF000 (fun w => .dRd (w.extractLsb' 0 12)) ∧
    decodesAs 0x16 0xFFF000 (fun w => .vRd (w.extractLsb' 0 12)) ∧
    ∀ (idx : BitVec 12) (s : State),
      exec (.dRd idx) s = .next (
        if s.dlen.toNat ≤ idx.toNat then failed s .eRange else gave s (s.dataAt idx.toNat).toNat) ∧
      exec (.vRd idx) s = .next (
        if s.vlen.toNat ≤ idx.toNat then failed s .eRange else gave s (s.valueAt idx.toNat).toNat)

/-- After `D.CLR` and up to 4096 `D.PUSH` the buffer holds exactly the bytes pushed and reads them back; the same for the
value buffer. -/
def Obligations.BuffersHoldWhatWasPushed : Prop :=
  ∀ (s : State) (bs : List Byte), s.Inv → bs.length ≤ 4096 →
    (∃ t, runCommands (dLoad bs) s = some t ∧ t.dlen.toNat = bs.length ∧
      ∀ (idx : BitVec 12) (h : idx.toNat < bs.length), exec (.dRd idx) t = .next (gave t bs[idx.toNat].toNat)) ∧
    ∃ t, runCommands (vLoad bs) s = some t ∧ t.vlen.toNat = bs.length ∧
      ∀ (idx : BitVec 12) (h : idx.toNat < bs.length), exec (.vRd idx) t = .next (gave t bs[idx.toNat].toNat)

/-! ## GF(256) -/

/-- `GF.MUL` responds the shift-and-add product modulo `0x11D` and changes nothing. -/
def Obligations.FieldMultiplyRespondsTheProduct : Prop :=
  decodesAs 0x20 0xFF0000 (fun w => .gfMul (w.extractLsb' 8 8) (w.extractLsb' 0 8)) ∧
    ∀ (a b : Byte) (s : State), s.romOk → exec (.gfMul a b) s = .next (gave s (shiftAndAdd a b).toNat)

/-- The laws of `GFMUL`: commutative, associative, distributive over xor, identity and zero, no zero divisors, doubling,
and the shift-and-add product. -/
def Obligations.FieldMultiplicationLaws : Prop :=
  let mul := gfMul expTable logTable
  (∀ a b, mul a b = mul b a) ∧ (∀ a b c, mul (mul a b) c = mul a (mul b c)) ∧
    (∀ a b c, mul a (b ^^^ c) = mul a b ^^^ mul a c) ∧ (∀ a, mul a 1 = a) ∧ (∀ a, mul a 0 = 0) ∧
    (∀ a b, mul a b = 0 → a = 0 ∨ b = 0) ∧ (∀ a, mul a 2 = xtime a) ∧ ∀ a b, mul a b = shiftAndAdd a b

/-- `GF.EXP` responds `α^i` for `i` up to 254 and refuses 255. -/
def Obligations.ExponentReadRespondsThePower : Prop :=
  decodesAs 0x21 0xFFFF00 (fun w => .gfExp (w.extractLsb' 0 8)) ∧
    ∀ (i : Byte) (s : State), s.romOk → exec (.gfExp i) s = .next (
      if i.toNat = 255 then failed s .eArg else gave s (alphaPow i.toNat).toNat)

/-- `GF.LOG` refuses 0; else it responds the one `i` in 0..254 with `α^i = a`. -/
def Obligations.LogarithmReadRespondsTheExponent : Prop :=
  decodesAs 0x22 0xFFFF00 (fun w => .gfLog (w.extractLsb' 0 8)) ∧
    ∀ (a : Byte) (s : State), s.romOk →
      if a = 0 then exec (.gfLog a) s = .next (failed s .eArg)
      else ∃ i, i ≤ 254 ∧ exec (.gfLog a) s = .next (gave s i) ∧ alphaPow i = a ∧ ∀ j, j ≤ 254 → alphaPow j = a → j = i

/-! ## Reed-Solomon -/

/-- `RS.GEN n` refuses `n` outside 1..30; else it sets `RS_N`, makes `RS_GEN` the product of the `n` linear factors
`x + α^i`, zeroes the remainder, and changes nothing else.
(The bound 30 is the default of 00 R10, at which the machine runs: log 8.) -/
def Obligations.GeneratorCommandBuildsTheProduct : Prop :=
  decodesAs 0x28 0xFFFF00 (fun w => .rsGen (w.extractLsb' 0 8)) ∧
    ∀ (n : Byte) (s : State), s.Inv →
      if n.toNat = 0 ∨ 30 < n.toNat then exec (.rsGen n) s = .next (failed s .eArg)
      else ∃ t, exec (.rsGen n) s = .next t ∧
        t = { gave s n.toNat with rsN := n, rsGen := t.rsGen, rsRem := t.rsRem } ∧
        (List.range (n.toNat + 1)).map t.genAt = linearFactors (gfMul expTable logTable) n.toNat ∧
        (∀ k, n.toNat < k → t.genAt k = s.genAt k) ∧
        ∀ k, t.remAt k = if k < n.toNat then 0 else s.remAt k

/-- `RS.CLR` needs a generator; it zeroes the remainder and changes nothing else. -/
def Obligations.RemainderClearZeroesTheRemainder : Prop :=
  decodesAs 0x29 0xFFFFFF (fun _ => .rsClr) ∧
    ∀ s : State, s.Inv →
      if s.rsN = 0 then exec .rsClr s = .next (failed s .eState)
      else ∃ t, exec .rsClr s = .next t ∧ t = { gave s 0 with rsRem := t.rsRem } ∧
        ∀ k, t.remAt k = if k < s.rsN.toNat then 0 else s.remAt k

/-- `RS.FEED d` needs a generator; it takes one step of the long division, all from the old remainder. -/
def Obligations.FeedTakesOneDivisionStep : Prop :=
  decodesAs 0x2A 0xFFFF00 (fun w => .rsFeed (w.extractLsb' 0 8)) ∧
    ∀ (d : Byte) (s : State), s.Inv →
      if s.rsN = 0 then exec (.rsFeed d) s = .next (failed s .eState)
      else ∃ t, exec (.rsFeed d) s = .next t ∧ t = { gave s 0 with rsRem := t.rsRem } ∧
        ∀ j, t.remAt j =
          if j + 1 < s.rsN.toNat then
            s.remAt (j + 1) ^^^ gfMul expTable logTable (s.genAt (j + 1)) (d ^^^ s.remAt 0)
          else if j + 1 = s.rsN.toNat then gfMul expTable logTable (s.genAt s.rsN.toNat) (d ^^^ s.remAt 0)
          else s.remAt j

/-- `RS.ENC` fails without a generator, then on its bounds; else it is `RS.CLR` followed by `RS.FEED` of every byte of the
extent, as one command with one response. -/
def Obligations.EncodeIsClearThenFeeds : Prop :=
  decodesAs 0x2B 0x000000 (fun w => .rsEnc (w.extractLsb' 12 12) (w.extractLsb' 0 12)) ∧
    ∀ (base len : BitVec 12) (s : State), s.Inv →
      if s.rsN = 0 then exec (.rsEnc base len) s = .next (failed s .eState)
      else if s.dlen.toNat < base.toNat + len.toNat then exec (.rsEnc base len) s = .next (failed s .eRange)
      else ∃ t u, exec (.rsEnc base len) s = .next t ∧
        runCommands (.rsClr :: (bytesOf s base len).map .rsFeed) s = some u ∧
        t = { gave s s.rsN.toNat with rsRem := t.rsRem } ∧ t.rsRem = u.rsRem

/-- After `RS.ENC` the remainder is that of the polynomial division: the data shifted up by `RS_N` places, plus the
remainder, is a multiple of the generator polynomial. -/
def Obligations.EncodeLeavesThePolynomialRemainder : Prop :=
  ∀ (base len : BitVec 12) (s : State), s.Inv → s.GenInv → s.rsN ≠ 0 → base.toNat + len.toNat ≤ s.dlen.toNat →
    ∃ t q, exec (.rsEnc base len) s = .next t ∧ q.length = len.toNat ∧ t.remainder.length = s.rsN.toNat ∧
      bytesOf s base len ++ t.remainder =
        polyMul (gfMul expTable logTable) q (linearFactors (gfMul expTable logTable) s.rsN.toNat)

/-- After `RS.ENC`, feeding the codewords themselves in index order makes the remainder all zero. -/
def Obligations.CodewordsFedBackLeaveZero : Prop :=
  ∀ (base len : BitVec 12) (s : State), s.Inv → s.rsN ≠ 0 → base.toNat + len.toNat ≤ s.dlen.toNat →
    ∃ t u, exec (.rsEnc base len) s = .next t ∧
      runCommands (((List.range s.rsN.toNat).map t.remAt).map .rsFeed) t = some u ∧
      ∀ k, k < s.rsN.toNat → u.remAt k = 0

/-- `RS.RD` and `RS.GRD` respond the codeword and the coefficient; the generator has one element more. -/
def Obligations.ReedSolomonReadsRespondTheElement : Prop :=
  decodesAs 0x2C 0xFFF000 (fun w => .rsRd (w.extractLsb' 0 12)) ∧
    decodesAs 0x2D 0xFFF000 (fun w => .rsGrd (w.extractLsb' 0 12)) ∧
    ∀ (idx : BitVec 12) (s : State),
      exec (.rsRd idx) s = .next (
        if s.rsN.toNat = 0 then failed s .eState
        else if s.rsN.toNat ≤ idx.toNat then failed s .eRange
        else gave s (s.remAt idx.toNat).toNat) ∧
      exec (.rsGrd idx) s = .next (
        if s.rsN.toNat = 0 then failed s .eState
        else if s.rsN.toNat < idx.toNat then failed s .eRange
        else gave s (s.genAt idx.toNat).toNat)

/-! ## BCH -/

/-- `BCH.FMT` responds the printed format information of its data word and changes nothing. -/
def Obligations.FormatInformationIsThePrintedTable : Prop :=
  decodesAs 0x30 0xFFFFE0 (fun w => .bchFmt (w.extractLsb' 0 5)) ∧
    ∀ (d5 : BitVec 5) (s : State), exec (.bchFmt d5) s = .next (gave s (formatTable.getD d5.toNat 0))

/-- `BCH.VER` refuses versions outside 7..40; else it responds the printed version information. -/
def Obligations.VersionInformationIsThePrintedTable : Prop :=
  decodesAs 0x31 0xFFFFC0 (fun w => .bchVer (w.extractLsb' 0 6)) ∧
    ∀ (v : BitVec 6) (s : State), exec (.bchVer v) s = .next (
      if v.toNat < 7 ∨ 40 < v.toNat then failed s .eArg else gave s (versionTable.getD (v.toNat - 7) 0))

/-- The laws of the BCH results: remainder 0 and the data bits on top, the minimum distances, and a linear divider. -/
def Obligations.BchLaws : Prop :=
  (∀ d, d < 32 → bchRem (formatInfo d ^^^ 0x5412) 0x537 10 14 = 0 ∧ (formatInfo d ^^^ 0x5412) >>> 10 = d) ∧
    (∀ v, 7 ≤ v → v ≤ 40 → bchRem (versionInfo v) 0x1F25 12 17 = 0 ∧ versionInfo v >>> 12 = v) ∧
    (∀ d e, d < 32 → e < 32 → d ≠ e → 7 ≤ distance (formatInfo d) (formatInfo e)) ∧
    (∀ v u, 7 ≤ v → v ≤ 40 → 7 ≤ u → u ≤ 40 → v ≠ u → 8 ≤ distance (versionInfo v) (versionInfo u)) ∧
    ∀ a b g dg top : Nat, bchRem (a ^^^ b) g dg top = bchRem a g dg top ^^^ bchRem b g dg top

/-! ## Barcodes -/

/-- `C128.SEQ` runs the loop of its rule over the extent: on success its output replaces the value buffer and nothing
else changes; on failure nothing changes. `VAL.C128` runs the same checks, writes nothing and responds 1. (Start and
switch values and the default set are the defaults of 43 R167 and R168, at which the machine runs: log 10.) -/
def Obligations.Code128SequencerRunsItsLoop : Prop :=
  decodesAs 0x40 0x000000 (fun w => .c128Seq (w.extractLsb' 12 12) (w.extractLsb' 0 12)) ∧
    decodesAs 0x48 0x000000 (fun w => .valC128 (w.extractLsb' 12 12) (w.extractLsb' 0 12)) ∧
    ∀ (base len : BitVec 12) (s : State), s.Inv →
      if s.dlen.toNat < base.toNat + len.toNat then
        exec (.c128Seq base len) s = .next (failed s .eRange) ∧ exec (.valC128 base len) s = .next (failed s .eRange)
      else
        match sequence128Of (bytesOf s base len) with
        | .error e => exec (.c128Seq base len) s = .next (failed s e) ∧ exec (.valC128 base len) s = .next (failed s e)
        | .ok out =>
          exec (.valC128 base len) s = .next (gave s 1) ∧
          ∃ t, exec (.c128Seq base len) s = .next t ∧
            t = { gave s out.length with vbuf := t.vbuf, vlen := t.vlen } ∧ t.vlen.toNat = out.length ∧
            ∀ k, t.valueAt k = if k < out.length then out.getD k 0 else s.valueAt k

/-- `C128.CHK` fails on an empty buffer, then on a value above 105; else it responds the weighted sum modulo 103. -/
def Obligations.Code128CheckIsTheWeightedSum : Prop :=
  decodesAs 0x41 0xFFFFFF (fun _ => .c128Chk) ∧
    ∀ s : State,
      if s.vlen.toNat = 0 then exec .c128Chk s = .next (failed s .eShape)
      else
        ((∀ i, i < s.vlen.toNat → valueNat s i ≤ 105) → exec .c128Chk s = .next (gave s (code128Check s))) ∧
          ∀ i, i < s.vlen.toNat → 105 < valueNat s i → exec .c128Chk s = .next (failed s .eChar)

/-- `M10.CHK` fails on an empty buffer, then on a value above 9; else it responds `MOD10` of the buffer. -/
def Obligations.Mod10CheckIsTheRightAnchoredSum : Prop :=
  decodesAs 0x42 0xFFFFFF (fun _ => .m10Chk) ∧
    ∀ s : State,
      if s.vlen.toNat = 0 then exec .m10Chk s = .next (failed s .eShape)
      else
        ((∀ i, i < s.vlen.toNat → valueNat s i ≤ 9) →
            exec .m10Chk s = .next (gave s (mod10Of s.vlen.toNat (valueNat s)))) ∧
          ∀ i, i < s.vlen.toNat → 9 < valueNat s i → exec .m10Chk s = .next (failed s .eChar)

/-- The check digit completes the digits: with weight 1 for it and weight 3 for its left neighbour the sum is divisible
by 10, and it is a digit. -/
def Obligations.Mod10DigitCompletesTheSum : Prop :=
  ∀ ds : List Nat, mod10 ds ≤ 9 ∧ (mod10Sum ds + mod10 ds) % 10 = 0 ∧
    mod10Sum ds + mod10 ds = ((ds ++ [mod10 ds]).reverse.zipIdx.map fun x => (if x.2 % 2 = 0 then 1 else 3) * x.1).sum

/-- `UPCE.EXP` runs the algorithm of its rule over the extent: on success the 12 digits replace the value buffer and the
check digit is the response; on failure nothing changes. `VAL.UPCE` runs the same checks, writes nothing, responds 1.
(The layouts are the default of 44 R192, at which the machine runs: log 11.) -/
def Obligations.UpceExpanderRunsItsAlgorithm : Prop :=
  decodesAs 0x43 0x000000 (fun w => .upceExp (w.extractLsb' 12 12) (w.extractLsb' 0 12)) ∧
    decodesAs 0x4C 0x000000 (fun w => .valUpce (w.extractLsb' 12 12) (w.extractLsb' 0 12)) ∧
    ∀ (base len : BitVec 12) (s : State), s.Inv →
      if s.dlen.toNat < base.toNat + len.toNat then
        exec (.upceExp base len) s = .next (failed s .eRange) ∧ exec (.valUpce base len) s = .next (failed s .eRange)
      else
        match expandUpce (bytesOf s base len) with
        | .error e => exec (.upceExp base len) s = .next (failed s e) ∧ exec (.valUpce base len) s = .next (failed s e)
        | .ok (digits, chk) =>
          exec (.valUpce base len) s = .next (gave s 1) ∧
          ∃ t, exec (.upceExp base len) s = .next t ∧
            t = { gave s chk with vbuf := t.vbuf, vlen := 12 } ∧ digits.length = 12 ∧
            ∀ k, if k < 12 then valueNat t k = digits.getD k 0 else t.valueAt k = s.valueAt k

/-- `PAR.EAN13` and `PAR.UPCE` respond the pattern of the default tables, or refuse a value above 9. (The tables are the
defaults of 44 R196 and R198, at which the machine runs: log 11.) -/
def Obligations.ParitySelectorsRespondThePattern : Prop :=
  decodesAs 0x45 0xFFFFF0 (fun w => .parEan13 (w.extractLsb' 0 4)) ∧
    decodesAs 0x46 0xFFFFF0 (fun w => .parUpce (w.extractLsb' 0 4)) ∧
    ∀ (d : BitVec 4) (s : State),
      exec (.parEan13 d) s = .next (
        if 9 < d.toNat then failed s .eArg
        else gave s ([0x00, 0x0B, 0x0D, 0x0E, 0x13, 0x19, 0x1C, 0x15, 0x16, 0x1A].getD d.toNat 0)) ∧
      exec (.parUpce d) s = .next (
        if 9 < d.toNat then failed s .eArg
        else gave s ([0x38, 0x34, 0x32, 0x31, 0x2C, 0x26, 0x23, 0x2A, 0x29, 0x25].getD d.toNat 0))

/-- `C93.SEQ` turns every byte of the extent, case-folded, into its place among the 43 symbols, or fails; on success the
places replace the value buffer. `VAL.C93` runs the same checks, writes nothing and responds 2. (The symbols are the
default of 45 R207, at which the machine runs: log 12.) -/
def Obligations.Code93SequencerMapsEveryByte : Prop :=
  decodesAs 0x47 0x000000 (fun w => .c93Seq (w.extractLsb' 12 12) (w.extractLsb' 0 12)) ∧
    decodesAs 0x50 0x000000 (fun w => .valC93 (w.extractLsb' 12 12) (w.extractLsb' 0 12)) ∧
    ∀ (base len : BitVec 12) (s : State), s.Inv →
      if s.dlen.toNat < base.toNat + len.toNat then
        exec (.c93Seq base len) s = .next (failed s .eRange) ∧ exec (.valC93 base len) s = .next (failed s .eRange)
      else if len.toNat = 0 then
        exec (.c93Seq base len) s = .next (failed s .eShape) ∧ exec (.valC93 base len) s = .next (failed s .eShape)
      else if (bytesOf s base len).any fun b => !(code93Symbols.contains (folded b)) then
        exec (.c93Seq base len) s = .next (failed s .eChar) ∧ exec (.valC93 base len) s = .next (failed s .eChar)
      else
        exec (.valC93 base len) s = .next (gave s 2) ∧
        ∃ t, exec (.c93Seq base len) s = .next t ∧
          t = { gave s len.toNat with vbuf := t.vbuf, vlen := t.vlen } ∧ t.vlen.toNat = len.toNat ∧
          ∀ k, if k < len.toNat then valueNat t k = code93Symbols.idxOf (folded (s.dataAt (base.toNat + k)))
            else t.valueAt k = s.valueAt k

/-- `C93.CHK` fails on an empty buffer, then on a value above 46; else it responds `C` in bits 7:0 and `K` in bits 15:8. -/
def Obligations.Code93CheckIsTheTwoWeightedSums : Prop :=
  decodesAs 0x44 0xFFFFFF (fun _ => .c93Chk) ∧
    ∀ s : State,
      if s.vlen.toNat = 0 then exec .c93Chk s = .next (failed s .eShape)
      else
        ((∀ i, i < s.vlen.toNat → valueNat s i ≤ 46) →
            exec .c93Chk s = .next (gave s (code93C s + 256 * code93K s))) ∧
          ∀ i, i < s.vlen.toNat → 46 < valueNat s i → exec .c93Chk s = .next (failed s .eChar)

/-- `VAL.EAN13`, `VAL.EAN8`, `VAL.UPCA`, `VAL.ITF`: bounds, then length, then digits, then the response 0; no check digit
is checked and nothing is written. -/
def Obligations.DigitValidatorsCheckLengthThenDigits : Prop :=
  decodesAs 0x49 0x000000 (fun w => .valEan13 (w.extractLsb' 12 12) (w.extractLsb' 0 12)) ∧
    decodesAs 0x4A 0x000000 (fun w => .valEan8 (w.extractLsb' 12 12) (w.extractLsb' 0 12)) ∧
    decodesAs 0x4B 0x000000 (fun w => .valUpca (w.extractLsb' 12 12) (w.extractLsb' 0 12)) ∧
    decodesAs 0x4E 0x000000 (fun w => .valItf (w.extractLsb' 12 12) (w.extractLsb' 0 12)) ∧
    ∀ (base len : BitVec 12) (s : State),
      let verdict := fun lengthOk : Bool =>
        if s.dlen.toNat < base.toNat + len.toNat then failed s .eRange
        else if lengthOk = false then failed s .eShape
        else if (bytesOf s base len).any fun b => b.toNat < 48 || 57 < b.toNat then failed s .eChar
        else gave s 0
      exec (.valEan13 base len) s = .next (verdict (len.toNat == 13)) ∧
        exec (.valEan8 base len) s = .next (verdict (len.toNat == 8)) ∧
        exec (.valUpca base len) s = .next (verdict (len.toNat == 12)) ∧
        exec (.valItf base len) s = .next (verdict (len.toNat % 2 == 0))

/-- `VAL.C39` and `VAL.CBAR`: bounds, then (Codabar alone) non-empty, then every byte, case-folded, in the alphabet, then
the response 0; nothing is written. (The alphabets are the defaults of 45 R219 and R221, at which the machine runs: log
12.) -/
def Obligations.AlphabetValidatorsCheckEveryByte : Prop :=
  decodesAs 0x4D 0x000000 (fun w => .valC39 (w.extractLsb' 12 12) (w.extractLsb' 0 12)) ∧
    decodesAs 0x4F 0x000000 (fun w => .valCbar (w.extractLsb' 12 12) (w.extractLsb' 0 12)) ∧
    ∀ (base len : BitVec 12) (s : State),
      exec (.valC39 base len) s = .next (
        if s.dlen.toNat < base.toNat + len.toNat then failed s .eRange
        else if (bytesOf s base len).any fun b => !(code93Symbols.contains (folded b)) then failed s .eChar
        else gave s 0) ∧
      exec (.valCbar base len) s = .next (
        if s.dlen.toNat < base.toNat + len.toNat then failed s .eRange
        else if len.toNat = 0 then failed s .eShape
        else if (bytesOf s base len).any fun b => !(codabarSymbols.contains (folded b)) then failed s .eChar
        else gave s 0)

/-! ## Matrix, mask, penalty, best mask -/

/-- `MAT.INIT v` refuses versions outside 1..40; else it sizes the matrix, blanks the new square, leaves every cell
outside it, and the score and the best candidate are no longer valid. (That the cells outside the square, the penalty
registers and the best candidate's registers, which no command observes then, stay as they are is the model's choice,
log 7: the spec calls them no contents, 46 R231, and leaves them open, 93 I3 and I4.) -/
def Obligations.MatrixInitBlanksTheSquare : Prop :=
  decodesAs 0x60 0xFFFFC0 (fun w => .matInit (w.extractLsb' 0 6)) ∧
    ∀ (v : BitVec 6) (s : State), s.Inv →
      if v.toNat < 1 ∨ 40 < v.toNat then exec (.matInit v) s = .next (failed s .eArg)
      else ∃ t, exec (.matInit v) s = .next t ∧
        t = { gave s (4 * v.toNat + 17) with matVer := v, mat := t.mat, penValid := false, bestValid := false } ∧
        ∀ r c, c < 177 → t.cell r c =
          if r < 4 * v.toNat + 17 ∧ c < 4 * v.toNat + 17 then ⟨.unset, false⟩ else s.cell r c

/-- `MAT.WR` needs a matrix, then coordinates inside it; it writes both fields of one cell, leaves every other cell, and
the score is no longer valid. -/
def Obligations.MatrixWriteWritesOneCell : Prop :=
  decodesAs 0x61 0x0000FC (fun w => .matWr (w.extractLsb' 16 8) (w.extractLsb' 8 8) (w.extractLsb' 0 2)) ∧
    ∀ (row col : Byte) (z : BitVec 2) (s : State), s.Inv →
      if s.matVer = 0 then exec (.matWr row col z) s = .next (failed s .eState)
      else if sideNat s ≤ row.toNat ∨ sideNat s ≤ col.toNat then exec (.matWr row col z) s = .next (failed s .eRange)
      else ∃ t, exec (.matWr row col z) s = .next t ∧ t = { gave s 0 with mat := t.mat, penValid := false } ∧
        ∀ r c, c < 177 → t.cell r c =
          if r = row.toNat ∧ c = col.toNat then ⟨if z.toNat % 2 = 1 then .dark else .light, 2 ≤ z.toNat⟩ else s.cell r c

/-- `MAT.RD` needs a matrix, then coordinates inside it; it responds the cell's three bits, never 2, and changes
nothing. -/
def Obligations.MatrixReadRespondsTheCell : Prop :=
  decodesAs 0x62 0xFF0000 (fun w => .matRd (w.extractLsb' 8 8) (w.extractLsb' 0 8)) ∧
    ∀ (row col : Byte) (s : State), s.Inv →
      exec (.matRd row col) s = .next (
        if s.matVer = 0 then failed s .eState
        else if sideNat s ≤ row.toNat ∨ sideNat s ≤ col.toNat then failed s .eRange
        else gave s (cellNat (s.cell row.toNat col.toNat))) ∧
      cellNat (s.cell row.toNat col.toNat) ∈ [0, 4, 5, 6, 7]

/-- `MASK.BIT` responds 1 where the formula of its mask holds and 0 elsewhere, for every row and column byte and with no
matrix. (The formulas are the default of 46 R236, at which the machine runs: log 9.) -/
def Obligations.MaskBitEvaluatesTheFormula : Prop :=
  decodesAs 0x63 0xF80000 (fun w => .maskBit (w.extractLsb' 16 3) (w.extractLsb' 8 8) (w.extractLsb' 0 8)) ∧
    ∀ (id : BitVec 3) (row col : Byte) (s : State),
      (maskFormula id.toNat row.toNat col.toNat → exec (.maskBit id row col) s = .next (gave s 1)) ∧
      (¬maskFormula id.toNat row.toNat col.toNat → exec (.maskBit id row col) s = .next (gave s 0))

/-- `MASK.APPLY` needs a matrix, then every unreserved cell set; it inverts exactly the unreserved cells of the square
where the formula holds, responds how many, and the score is no longer valid. (The formulas are the default of 46 R236,
at which the machine runs: log 9.) -/
def Obligations.MaskApplyInvertsTheMaskedCells : Prop :=
  decodesAs 0x64 0xFFFFF8 (fun w => .maskApply (w.extractLsb' 0 3)) ∧
    ∀ (id : BitVec 3) (s : State), s.Inv →
      (s.matVer = 0 → exec (.maskApply id) s = .next (failed s .eState)) ∧
      (s.matVer ≠ 0 → ¬dataSet s → exec (.maskApply id) s = .next (failed s .eState)) ∧
      (s.matVer ≠ 0 → dataSet s → ∃ t, exec (.maskApply id) s = .next t ∧
        t = { gave s ((coords (sideNat s)).countP fun p => t.cell p.1 p.2 != s.cell p.1 p.2) with
          mat := t.mat, penValid := false } ∧
        ∀ r c, c < 177 →
          (r < sideNat s ∧ c < sideNat s ∧ (s.cell r c).rsv = false ∧ maskFormula id.toNat r c ∧
            t.cell r c = ⟨if (s.cell r c).st = .dark then .light else .dark, false⟩) ∨
          (¬(r < sideNat s ∧ c < sideNat s ∧ (s.cell r c).rsv = false ∧ maskFormula id.toNat r c) ∧
            t.cell r c = s.cell r c))

/-- The laws of masking, for every configuration of the mask predicates: applying a mask twice restores the matrix, with
the same count both times, and two masks commute. -/
def Obligations.MasksAreInvolutionsAndCommute : Prop :=
  ∀ (cfg : Config) (a b : BitVec 3) (s : State), s.Inv → s.matVer ≠ 0 → dataSet s →
    ∃ t u v w x n, maskApplyWith cfg a s = .next t ∧ maskApplyWith cfg a t = .next u ∧
      t.responses = .ok n :: s.responses ∧ u.responses = .ok n :: t.responses ∧ u.mat = s.mat ∧
      maskApplyWith cfg b t = .next v ∧ maskApplyWith cfg b s = .next w ∧ maskApplyWith cfg a w = .next x ∧
      v.mat = x.mat

/-- `PEN.SCORE` needs a matrix, then every cell set; it writes the scores of the four rules and their sum, responds the
sum, and changes nothing else. (The templates of rule (c) are the defaults of 46 R244, at which the machine runs: log
9.) -/
def Obligations.PenaltyScoreMeetsTheFourRules : Prop :=
  decodesAs 0x65 0xFFFFFF (fun _ => .penScore) ∧
    ∀ s : State, s.Inv →
      (s.matVer = 0 → exec .penScore s = .next (failed s .eState)) ∧
      (s.matVer ≠ 0 → ¬allSet s → exec .penScore s = .next (failed s .eState)) ∧
      (s.matVer ≠ 0 → allSet s → ∃ t, exec .penScore s = .next t ∧
        t = { gave s (scoreA s + scoreB s + scoreC s + scoreD s) with
          penA := t.penA, penB := t.penB, penC := t.penC, penD := t.penD, penTotal := t.penTotal, penValid := true } ∧
        t.penA.toNat = scoreA s ∧ t.penB.toNat = scoreB s ∧ t.penC.toNat = scoreC s ∧ t.penD.toNat = scoreD s ∧
        t.penTotal.toNat = scoreA s + scoreB s + scoreC s + scoreD s)

/-- The penalty registers never overflow: while the score is valid, in a state that meets the invariants, each register is
at most the bound of its rule for the largest matrix, and `PEN_TOTAL` is the sum of the four as integers, below 2^22. The
same bounds hold of what the scorer computes for the square, and of the four rules themselves, valid score or not. -/
def Obligations.PenaltyScoresAreBounded : Prop :=
  ∀ s : State, s.Inv →
    (s.PenInv → s.penValid = true →
      s.penA.toNat ≤ 61950 ∧ s.penB.toNat ≤ 92928 ∧ s.penC.toNat ≤ 2364720 ∧ s.penD.toNat ≤ 100 ∧
        s.penTotal.toNat = s.penA.toNat + s.penB.toNat + s.penC.toNat + s.penD.toNat ∧ s.penTotal.toNat < 2 ^ 22) ∧
    (∀ rows, rows = darkRows s.square →
      penaltyA rows ≤ 61950 ∧ penaltyB rows ≤ 92928 ∧ penaltyC unitConfig rows ≤ 2364720 ∧ penaltyD rows ≤ 100 ∧
        penaltyA rows + penaltyB rows + penaltyC unitConfig rows + penaltyD rows < 2 ^ 22) ∧
    scoreA s ≤ 61950 ∧ scoreB s ≤ 92928 ∧ scoreC s ≤ 2364720 ∧ scoreD s ≤ 100 ∧
      scoreA s + scoreB s + scoreC s + scoreD s < 2 ^ 22

/-- `BEST.CLR` clears the valid bit. `BEST.UPD` needs a valid score; it records the candidate if there is none or its score
is strictly lower, else changes nothing, and responds the best id. (That `BEST.CLR` leaves `BEST_ID` and `BEST_PEN` as
they are is the model's choice, log 7: the spec says that they need not be changed, 46 R250.) -/
def Obligations.BestRegisterKeepsTheLowestScore : Prop :=
  decodesAs 0x66 0xFFFFFF (fun _ => .bestClr) ∧ decodesAs 0x67 0xFFFFF8 (fun w => .bestUpd (w.extractLsb' 0 3)) ∧
    ∀ (id : BitVec 3) (s : State),
      exec .bestClr s = .next { gave s 0 with bestValid := false } ∧
      exec (.bestUpd id) s = .next (
        if s.penValid = false then failed s .eState
        else if s.bestValid = false ∨ s.penTotal.toNat < s.bestPen.toNat then
          { gave s id.toNat with bestId := id, bestPen := s.penTotal, bestValid := true }
        else gave s s.bestId.toNat)

/-- After `BEST.CLR` and at least one offer the recorded candidate is the first of those with the lowest score. -/
def Obligations.BestRegisterSelectsTheFirstLowest : Prop :=
  ∀ (s : State) (offers : List (BitVec 3 × BitVec 32)), offers ≠ [] →
    ∃ t j, offerAll offers { s with bestValid := false } = some t ∧ t.bestValid = true ∧
      offers[j]? = some (t.bestId, t.bestPen) ∧
      (∀ (k : Nat) (o : BitVec 3 × BitVec 32), offers[k]? = some o → t.bestPen.toNat ≤ o.2.toNat) ∧
      ∀ (k : Nat) (o : BitVec 3 × BitVec 32), k < j → offers[k]? = some o → t.bestPen.toNat < o.2.toNat
end

