-- ==== Sys2Proof/Laws/Memory.lean ====
section
/-! SUPPORT. The laws of the array memories: what a read gives after a write, and that every operation keeps the
canonical form. -/

namespace Sys2Proof.Machine

variable {α : Type}

theorem readMem_nil (blank : α) (i : Nat) : readMem blank [] i = blank := rfl

/-- Below every listed key a memory reads blank. -/
theorem readMem_of_lt (blank : α) (m : Memory α) (i : Nat) (h : ∀ x ∈ m, i < x.1) : readMem blank m i = blank := by
  cases m with
  | nil => rfl
  | cons x rest =>
    obtain ⟨k, v⟩ := x
    have hk : i < k := h (k, v) (by simp)
    have hne : ¬k = i := by omega
    simp [readMem, hne, hk]

theorem wf_tail (blank : α) (x : Nat × α) (m : Memory α) (h : Memory.wf blank (x :: m)) : Memory.wf blank m :=
  ⟨(List.pairwise_cons.1 h.1).2, fun y hy => h.2 y (List.mem_cons_of_mem x hy)⟩

theorem wf_head_lt (blank : α) (x : Nat × α) (m : Memory α) (h : Memory.wf blank (x :: m)) : ∀ y ∈ m, x.1 < y.1 :=
  (List.pairwise_cons.1 h.1).1

theorem wf_cons (blank : α) (k : Nat) (v : α) (m : Memory α) (hv : v ≠ blank) (hk : ∀ y ∈ m, k < y.1)
    (h : Memory.wf blank m) : Memory.wf blank ((k, v) :: m) :=
  ⟨List.pairwise_cons.2 ⟨hk, h.1⟩, fun y hy => by
    rcases List.mem_cons.1 hy with rfl | hy
    · exact hv
    · exact h.2 y hy⟩

variable [DecidableEq α]

/-- What a write can leave listed: the entry written, or an entry from before. -/
theorem mem_writeMem (blank : α) (m : Memory α) (i : Nat) (v : α) (x : Nat × α) (hx : x ∈ writeMem blank m i v) :
    (x = (i, v) ∧ v ≠ blank) ∨ x ∈ m := by
  induction m with
  | nil =>
    by_cases hv : v = blank
    · simp [writeMem, hv] at hx
    · simp only [writeMem, if_neg hv, List.mem_singleton] at hx
      exact .inl ⟨hx, hv⟩
  | cons y rest ih =>
    obtain ⟨k, u⟩ := y
    by_cases hlt : i < k
    · by_cases hv : v = blank
      · simp only [writeMem, if_pos hlt, if_pos hv] at hx
        exact .inr hx
      · simp only [writeMem, if_pos hlt, if_neg hv] at hx
        rcases List.mem_cons.1 hx with hx | hx
        · exact .inl ⟨hx, hv⟩
        · exact .inr hx
    · by_cases heq : k = i
      · by_cases hv : v = blank
        · simp only [writeMem, if_neg hlt, if_pos heq, if_pos hv] at hx
          exact .inr (List.mem_cons_of_mem _ hx)
        · simp only [writeMem, if_neg hlt, if_pos heq, if_neg hv] at hx
          rcases List.mem_cons.1 hx with hx | hx
          · exact .inl ⟨hx, hv⟩
          · exact .inr (List.mem_cons_of_mem _ hx)
      · simp only [writeMem, if_neg hlt, if_neg heq] at hx
        rcases List.mem_cons.1 hx with hx | hx
        · exact .inr (hx ▸ List.mem_cons_self)
        · rcases ih hx with h | h
          · exact .inl h
          · exact .inr (List.mem_cons_of_mem _ h)

/-- A write keeps the canonical form. -/
theorem writeMem_wf (blank : α) (m : Memory α) (i : Nat) (v : α) (h : Memory.wf blank m) :
    Memory.wf blank (writeMem blank m i v) := by
  induction m with
  | nil =>
    by_cases hv : v = blank
    · simpa only [writeMem, if_pos hv] using h
    · simp only [writeMem, if_neg hv]
      exact wf_cons blank i v [] hv (by simp) h
  | cons y rest ih =>
    obtain ⟨k, u⟩ := y
    have hrest := wf_tail blank _ _ h
    have hhead := wf_head_lt blank _ _ h
    have hu : u ≠ blank := h.2 (k, u) List.mem_cons_self
    by_cases hlt : i < k
    · by_cases hv : v = blank
      · simpa only [writeMem, if_pos hlt, if_pos hv] using h
      · simp only [writeMem, if_pos hlt, if_neg hv]
        refine wf_cons blank i v _ hv (fun y hy => ?_) h
        rcases List.mem_cons.1 hy with rfl | hy
        · exact hlt
        · exact Nat.lt_trans hlt (hhead y hy)
    · by_cases heq : k = i
      · by_cases hv : v = blank
        · simpa only [writeMem, if_neg hlt, if_pos heq, if_pos hv] using hrest
        · simp only [writeMem, if_neg hlt, if_pos heq, if_neg hv]
          exact wf_cons blank i v _ hv (heq ▸ hhead) hrest
      · simp only [writeMem, if_neg hlt, if_neg heq]
        refine wf_cons blank k u _ hu (fun y hy => ?_) (ih hrest)
        rcases mem_writeMem blank rest i v y hy with ⟨rfl, _⟩ | hy
        · show k < i
          omega
        · exact hhead y hy

/-- A write below `size` keeps every listed index below `size`. -/
theorem writeMem_within (blank : α) (m : Memory α) (i : Nat) (v : α) (size : Nat) (hi : i < size)
    (h : Memory.within size m) : Memory.within size (writeMem blank m i v) := by
  intro x hx
  rcases mem_writeMem blank m i v x hx with ⟨rfl, _⟩ | hx
  · exact hi
  · exact h x hx

/-- What a read gives after a write. -/
theorem readMem_writeMem (blank : α) (m : Memory α) (i : Nat) (v : α) (j : Nat) (h : Memory.wf blank m) :
    readMem blank (writeMem blank m i v) j = if j = i then v else readMem blank m j := by
  induction m with
  | nil =>
    by_cases hv : v = blank
    · simp [writeMem, readMem, hv]
    · by_cases hj : j = i
      · simp [writeMem, readMem, hv, hj]
      · have : ¬i = j := fun e => hj e.symm
        simp [writeMem, readMem, hv, hj, this]
  | cons y rest ih =>
    obtain ⟨k, u⟩ := y
    have hrest := wf_tail blank _ _ h
    have hhead := wf_head_lt blank _ _ h
    by_cases hlt : i < k
    · by_cases hv : v = blank
      · simp only [writeMem, if_pos hlt, if_pos hv]
        by_cases hj : j = i
        · have hne : ¬k = j := by omega
          have hlt' : j < k := by omega
          simp [readMem, hj, hv, hlt, show ¬k = i by omega]
        · simp [hj]
      · simp only [writeMem, if_pos hlt, if_neg hv]
        by_cases hj : j = i
        · simp [readMem, hj]
        · have hij : ¬i = j := fun e => hj e.symm
          by_cases hji : j < i
          · simp [readMem, hj, hij, hji, show ¬k = j by omega, show j < k by omega]
          · rw [show readMem blank ((i, v) :: (k, u) :: rest) j = readMem blank ((k, u) :: rest) j by
              simp [readMem, hij, hji]]
            simp [hj]
    · by_cases heq : k = i
      · subst heq
        by_cases hv : v = blank
        · simp only [writeMem, if_neg hlt, if_pos, if_pos hv]
          by_cases hj : j = k
          · subst hj
            simp only [if_pos]
            rw [hv]
            exact readMem_of_lt blank rest j hhead
          · have hkj : ¬k = j := fun e => hj e.symm
            by_cases hjk : j < k
            · rw [readMem_of_lt blank rest j (fun x hx => Nat.lt_trans hjk (hhead x hx))]
              simp [readMem, hj, hkj, hjk]
            · simp [readMem, hj, hkj, hjk]
        · simp only [writeMem, if_neg hlt, if_pos, if_neg hv]
          by_cases hj : j = k
          · simp [readMem, hj]
          · have hkj : ¬k = j := fun e => hj e.symm
            simp [readMem, hj, hkj]
      · simp only [writeMem, if_neg hlt, if_neg heq]
        by_cases hkj : k = j
        · have hj : ¬j = i := by omega
          simp [readMem, hkj, hj]
        · by_cases hjk : j < k
          · have hj : ¬j = i := by omega
            simp [readMem, hkj, hjk, hj]
          · simp only [readMem, if_neg hkj, if_neg hjk]
            exact ih hrest

theorem readMem_writeMem_self (blank : α) (m : Memory α) (i : Nat) (v : α) (h : Memory.wf blank m) :
    readMem blank (writeMem blank m i v) i = v := by
  rw [readMem_writeMem blank m i v i h, if_pos rfl]

theorem readMem_writeMem_ne (blank : α) (m : Memory α) (i : Nat) (v : α) (j : Nat) (h : Memory.wf blank m)
    (hj : j ≠ i) : readMem blank (writeMem blank m i v) j = readMem blank m j := by
  rw [readMem_writeMem blank m i v j h, if_neg hj]

/-- A sequence of writes keeps the canonical form. -/
theorem writeSeq_wf (blank : α) (vs : List α) : ∀ (m : Memory α) (base : Nat), Memory.wf blank m →
    Memory.wf blank (writeSeq blank m base vs) := by
  induction vs with
  | nil => exact fun m base h => h
  | cons v vs ih => exact fun m base h => ih _ _ (writeMem_wf blank m base v h)

theorem writeSeq_within (blank : α) (size : Nat) (vs : List α) : ∀ (m : Memory α) (base : Nat),
    base + vs.length ≤ size → Memory.within size m → Memory.within size (writeSeq blank m base vs) := by
  induction vs with
  | nil => exact fun m base _ h => h
  | cons v vs ih =>
    intro m base hb h
    simp only [List.length_cons] at hb
    exact ih _ _ (by omega) (writeMem_within blank m base v size (by omega) h)

/-- What a read gives after a sequence of writes: the element written there, or what was there before. -/
theorem readMem_writeSeq (blank : α) (vs : List α) : ∀ (m : Memory α) (base j : Nat), Memory.wf blank m →
    readMem blank (writeSeq blank m base vs) j =
      if base ≤ j ∧ j < base + vs.length then vs.getD (j - base) blank else readMem blank m j := by
  induction vs with
  | nil =>
    intro m base j _
    simp only [writeSeq, List.length_nil, Nat.add_zero]
    rw [if_neg (by omega)]
  | cons v vs ih =>
    intro m base j h
    simp only [writeSeq]
    rw [ih _ _ _ (writeMem_wf blank m base v h)]
    by_cases hj : j = base
    · subst hj
      rw [if_neg (by omega), readMem_writeMem_self blank m j v h, if_pos (by simp)]
      simp
    · rw [readMem_writeMem_ne blank m base v j h hj]
      by_cases hin : base + 1 ≤ j ∧ j < base + 1 + vs.length
      · rw [if_pos hin, if_pos (by simp only [List.length_cons]; omega)]
        obtain ⟨d, rfl⟩ : ∃ d, j = base + 1 + d := ⟨j - (base + 1), by omega⟩
        simp [show base + 1 + d - (base + 1) = d by omega, show base + 1 + d - base = d + 1 by omega]
      · rw [if_neg hin, if_neg (by simp only [List.length_cons]; omega)]

omit [DecidableEq α] in
/-- A listed entry is what its index reads as. -/
theorem readMem_of_mem (blank : α) : ∀ (m : Memory α) (x : Nat × α), Memory.wf blank m → x ∈ m → readMem blank m x.1 = x.2
  | y :: m, x, h, hx => by
    rcases List.mem_cons.mp hx with rfl | hm
    · simp [readMem]
    · have hlt := wf_head_lt blank y m h x hm
      simp [readMem, Nat.ne_of_lt hlt, Nat.not_lt.mpr (Nat.le_of_lt hlt),
        readMem_of_mem blank m x (wf_tail blank y m h) hm]

omit [DecidableEq α] in
theorem readSeq_length (blank : α) (m : Memory α) (base n : Nat) : (readSeq blank m base n).length = n := by
  simp [readSeq]

omit [DecidableEq α] in
theorem readSeq_getElem (blank : α) (m : Memory α) (base n k : Nat) (h : k < (readSeq blank m base n).length) :
    (readSeq blank m base n)[k] = readMem blank m (base + k) := by
  simp [readSeq]

omit [DecidableEq α] in
/-- Two sequences read the same if every element does. -/
theorem readSeq_congr (blank : α) (m m' : Memory α) (base n : Nat)
    (h : ∀ k, k < n → readMem blank m (base + k) = readMem blank m' (base + k)) :
    readSeq blank m base n = readSeq blank m' base n := by
  refine List.map_congr_left fun k hk => h k (List.mem_range.1 hk)

/-- A sequence written is read back. -/
theorem readSeq_writeSeq (blank : α) (m : Memory α) (base : Nat) (vs : List α) (h : Memory.wf blank m) :
    readSeq blank (writeSeq blank m base vs) base vs.length = vs := by
  refine List.ext_getElem (by simp [readSeq]) fun k h1 h2 => ?_
  rw [readSeq_getElem, readMem_writeSeq blank vs m base _ h, if_pos (by omega)]
  simp [h2]

omit [DecidableEq α] in
/-- Dropping entries keeps the canonical form. -/
theorem filter_wf (blank : α) (m : Memory α) (p : Nat × α → Bool) (h : Memory.wf blank m) :
    Memory.wf blank (m.filter p) :=
  ⟨h.1.filter p, fun x hx => h.2 x (List.mem_of_mem_filter hx)⟩

omit [DecidableEq α] in
/-- Dropping entries by their key: a kept key reads as before, a dropped one reads blank. -/
theorem readMem_filter (blank : α) (p : Nat → Bool) (m : Memory α) (i : Nat)
    (h : m.Pairwise (fun x y => x.1 < y.1)) :
    readMem blank (m.filter fun x => p x.1) i = if p i then readMem blank m i else blank := by
  induction m with
  | nil => simp [readMem]
  | cons y rest ih =>
    obtain ⟨k, u⟩ := y
    obtain ⟨hhead, hrest⟩ := List.pairwise_cons.1 h
    have below : ∀ j, j ≤ k → readMem blank (rest.filter fun x => p x.1) j = blank := fun j hj =>
      readMem_of_lt blank _ j fun x hx => Nat.lt_of_le_of_lt hj (hhead x (List.mem_of_mem_filter hx))
    by_cases hk : p k
    · simp only [List.filter_cons, hk, if_true, readMem]
      by_cases hki : k = i
      · subst hki
        simp [hk]
      · by_cases hik : i < k
        · simp [hki, hik]
        · simp only [if_neg hki, if_neg hik]
          exact ih hrest
    · simp only [List.filter_cons, hk, Bool.false_eq_true, if_false, readMem]
      by_cases hki : k = i
      · subst hki
        simp [hk, below k (Nat.le_refl k)]
      · by_cases hik : i < k
        · simp [hki, hik, below i (Nat.le_of_lt hik)]
        · simp only [if_neg hki, if_neg hik]
          exact ih hrest

omit [DecidableEq α] in
/-- Changing elements in place keeps the canonical form if no listed element becomes blank. -/
theorem map_wf (blank : α) (f : Nat → α → α) (m : Memory α) (h : Memory.wf blank m)
    (hf : ∀ x ∈ m, f x.1 x.2 ≠ blank) : Memory.wf blank (m.map fun x => (x.1, f x.1 x.2)) := by
  refine ⟨?_, fun x hx => ?_⟩
  · rw [List.pairwise_map]
    exact h.1
  · obtain ⟨y, hy, rfl⟩ := List.mem_map.1 hx
    exact hf y hy

omit [DecidableEq α] in
/-- What an index reads after a change in place that leaves a blank element there blank. -/
theorem readMem_map (blank : α) (f : Nat → α → α) (m : Memory α) (i : Nat)
    (hf : readMem blank m i = blank → f i blank = blank) :
    readMem blank (m.map fun x => (x.1, f x.1 x.2)) i = f i (readMem blank m i) := by
  induction m with
  | nil => exact (hf rfl).symm
  | cons y rest ih =>
    obtain ⟨k, u⟩ := y
    simp only [List.map_cons, readMem]
    by_cases hki : k = i
    · subst hki
      simp
    · by_cases hik : i < k
      · simp only [if_neg hki, if_pos hik]
        exact (hf (by simp [readMem, hki, hik])).symm
      · simp only [if_neg hki, if_neg hik]
        exact ih fun h => hf (by simpa [readMem, hki, hik] using h)

omit [DecidableEq α] in
/-- Canonical memories that read the same everywhere are equal data. -/
theorem wf_ext (blank : α) : ∀ (m m' : Memory α), Memory.wf blank m → Memory.wf blank m' →
    (∀ i, readMem blank m i = readMem blank m' i) → m = m' := by
  intro m
  induction m with
  | nil =>
    intro m' _ h' hr
    cases m' with
    | nil => rfl
    | cons y rest =>
      have := hr y.1
      simp [readMem] at this
      exact absurd this.symm (h'.2 y List.mem_cons_self)
  | cons x rest ih =>
    intro m' h h' hr
    cases m' with
    | nil =>
      have := hr x.1
      simp [readMem] at this
      exact absurd this (h.2 x List.mem_cons_self)
    | cons y rest' =>
      obtain ⟨k, u⟩ := x
      obtain ⟨l, w⟩ := y
      have hu : u ≠ blank := h.2 (k, u) List.mem_cons_self
      have hw : w ≠ blank := h'.2 (l, w) List.mem_cons_self
      have hkl : k = l := by
        rcases Nat.lt_trichotomy k l with hlt | heq | hgt
        · have := hr k
          simp [readMem, hlt, show ¬l = k by omega] at this
          exact absurd this hu
        · exact heq
        · have := hr l
          simp [readMem, hgt, show ¬k = l by omega] at this
          exact absurd this.symm hw
      subst hkl
      have huw : u = w := by simpa [readMem] using hr k
      subst huw
      have := ih rest' (wf_tail blank _ _ h) (wf_tail blank _ _ h') fun i => by
        rcases Nat.lt_or_ge k i with hlt | hge
        · simpa [readMem, show ¬k = i by omega, show ¬i < k by omega] using hr i
        · rw [readMem_of_lt blank rest i fun x hx => Nat.lt_of_le_of_lt hge (wf_head_lt blank _ _ h x hx),
            readMem_of_lt blank rest' i fun x hx => Nat.lt_of_le_of_lt hge (wf_head_lt blank _ _ h' x hx)]
      rw [this]

end Sys2Proof.Machine
end

