-- ==== Sys2Proof/Laws/State.lean ====
section
/-! SUPPORT. One lemma per field per named state change of Machine/Ops.lean, each true by definition. -/

namespace Sys2Proof.Machine

variable (s : State)

/-! ## `State.emit` -/

@[simp] theorem State.emit_expRom (r : Response) : (s.emit r).expRom = s.expRom := rfl
@[simp] theorem State.emit_logRom (r : Response) : (s.emit r).logRom = s.logRom := rfl
@[simp] theorem State.emit_dbuf (r : Response) : (s.emit r).dbuf = s.dbuf := rfl
@[simp] theorem State.emit_dlen (r : Response) : (s.emit r).dlen = s.dlen := rfl
@[simp] theorem State.emit_vbuf (r : Response) : (s.emit r).vbuf = s.vbuf := rfl
@[simp] theorem State.emit_vlen (r : Response) : (s.emit r).vlen = s.vlen := rfl
@[simp] theorem State.emit_rsN (r : Response) : (s.emit r).rsN = s.rsN := rfl
@[simp] theorem State.emit_rsGen (r : Response) : (s.emit r).rsGen = s.rsGen := rfl
@[simp] theorem State.emit_rsRem (r : Response) : (s.emit r).rsRem = s.rsRem := rfl
@[simp] theorem State.emit_matVer (r : Response) : (s.emit r).matVer = s.matVer := rfl
@[simp] theorem State.emit_mat (r : Response) : (s.emit r).mat = s.mat := rfl
@[simp] theorem State.emit_penA (r : Response) : (s.emit r).penA = s.penA := rfl
@[simp] theorem State.emit_penB (r : Response) : (s.emit r).penB = s.penB := rfl
@[simp] theorem State.emit_penC (r : Response) : (s.emit r).penC = s.penC := rfl
@[simp] theorem State.emit_penD (r : Response) : (s.emit r).penD = s.penD := rfl
@[simp] theorem State.emit_penTotal (r : Response) : (s.emit r).penTotal = s.penTotal := rfl
@[simp] theorem State.emit_penValid (r : Response) : (s.emit r).penValid = s.penValid := rfl
@[simp] theorem State.emit_bestId (r : Response) : (s.emit r).bestId = s.bestId := rfl
@[simp] theorem State.emit_bestPen (r : Response) : (s.emit r).bestPen = s.bestPen := rfl
@[simp] theorem State.emit_bestValid (r : Response) : (s.emit r).bestValid = s.bestValid := rfl
@[simp] theorem State.emit_inputs (r : Response) : (s.emit r).inputs = s.inputs := rfl
@[simp] theorem State.emit_responses (r : Response) : (s.emit r).responses = r :: s.responses := rfl

/-! ## `State.clearData` -/

@[simp] theorem State.clearData_expRom : (s.clearData).expRom = s.expRom := rfl
@[simp] theorem State.clearData_logRom : (s.clearData).logRom = s.logRom := rfl
@[simp] theorem State.clearData_dbuf : (s.clearData).dbuf = s.dbuf := rfl
@[simp] theorem State.clearData_dlen : (s.clearData).dlen = 0 := rfl
@[simp] theorem State.clearData_vbuf : (s.clearData).vbuf = s.vbuf := rfl
@[simp] theorem State.clearData_vlen : (s.clearData).vlen = s.vlen := rfl
@[simp] theorem State.clearData_rsN : (s.clearData).rsN = s.rsN := rfl
@[simp] theorem State.clearData_rsGen : (s.clearData).rsGen = s.rsGen := rfl
@[simp] theorem State.clearData_rsRem : (s.clearData).rsRem = s.rsRem := rfl
@[simp] theorem State.clearData_matVer : (s.clearData).matVer = s.matVer := rfl
@[simp] theorem State.clearData_mat : (s.clearData).mat = s.mat := rfl
@[simp] theorem State.clearData_penA : (s.clearData).penA = s.penA := rfl
@[simp] theorem State.clearData_penB : (s.clearData).penB = s.penB := rfl
@[simp] theorem State.clearData_penC : (s.clearData).penC = s.penC := rfl
@[simp] theorem State.clearData_penD : (s.clearData).penD = s.penD := rfl
@[simp] theorem State.clearData_penTotal : (s.clearData).penTotal = s.penTotal := rfl
@[simp] theorem State.clearData_penValid : (s.clearData).penValid = s.penValid := rfl
@[simp] theorem State.clearData_bestId : (s.clearData).bestId = s.bestId := rfl
@[simp] theorem State.clearData_bestPen : (s.clearData).bestPen = s.bestPen := rfl
@[simp] theorem State.clearData_bestValid : (s.clearData).bestValid = s.bestValid := rfl
@[simp] theorem State.clearData_inputs : (s.clearData).inputs = s.inputs := rfl
@[simp] theorem State.clearData_responses : (s.clearData).responses = s.responses := rfl

/-! ## `State.pushData` -/

@[simp] theorem State.pushData_expRom (b : Byte) : (s.pushData b).expRom = s.expRom := rfl
@[simp] theorem State.pushData_logRom (b : Byte) : (s.pushData b).logRom = s.logRom := rfl
@[simp] theorem State.pushData_dbuf (b : Byte) : (s.pushData b).dbuf = writeMem blankByte s.dbuf s.dlen.toNat b := rfl
@[simp] theorem State.pushData_dlen (b : Byte) : (s.pushData b).dlen = s.dlen + 1 := rfl
@[simp] theorem State.pushData_vbuf (b : Byte) : (s.pushData b).vbuf = s.vbuf := rfl
@[simp] theorem State.pushData_vlen (b : Byte) : (s.pushData b).vlen = s.vlen := rfl
@[simp] theorem State.pushData_rsN (b : Byte) : (s.pushData b).rsN = s.rsN := rfl
@[simp] theorem State.pushData_rsGen (b : Byte) : (s.pushData b).rsGen = s.rsGen := rfl
@[simp] theorem State.pushData_rsRem (b : Byte) : (s.pushData b).rsRem = s.rsRem := rfl
@[simp] theorem State.pushData_matVer (b : Byte) : (s.pushData b).matVer = s.matVer := rfl
@[simp] theorem State.pushData_mat (b : Byte) : (s.pushData b).mat = s.mat := rfl
@[simp] theorem State.pushData_penA (b : Byte) : (s.pushData b).penA = s.penA := rfl
@[simp] theorem State.pushData_penB (b : Byte) : (s.pushData b).penB = s.penB := rfl
@[simp] theorem State.pushData_penC (b : Byte) : (s.pushData b).penC = s.penC := rfl
@[simp] theorem State.pushData_penD (b : Byte) : (s.pushData b).penD = s.penD := rfl
@[simp] theorem State.pushData_penTotal (b : Byte) : (s.pushData b).penTotal = s.penTotal := rfl
@[simp] theorem State.pushData_penValid (b : Byte) : (s.pushData b).penValid = s.penValid := rfl
@[simp] theorem State.pushData_bestId (b : Byte) : (s.pushData b).bestId = s.bestId := rfl
@[simp] theorem State.pushData_bestPen (b : Byte) : (s.pushData b).bestPen = s.bestPen := rfl
@[simp] theorem State.pushData_bestValid (b : Byte) : (s.pushData b).bestValid = s.bestValid := rfl
@[simp] theorem State.pushData_inputs (b : Byte) : (s.pushData b).inputs = s.inputs := rfl
@[simp] theorem State.pushData_responses (b : Byte) : (s.pushData b).responses = s.responses := rfl

/-! ## `State.clearValues` -/

@[simp] theorem State.clearValues_expRom : (s.clearValues).expRom = s.expRom := rfl
@[simp] theorem State.clearValues_logRom : (s.clearValues).logRom = s.logRom := rfl
@[simp] theorem State.clearValues_dbuf : (s.clearValues).dbuf = s.dbuf := rfl
@[simp] theorem State.clearValues_dlen : (s.clearValues).dlen = s.dlen := rfl
@[simp] theorem State.clearValues_vbuf : (s.clearValues).vbuf = s.vbuf := rfl
@[simp] theorem State.clearValues_vlen : (s.clearValues).vlen = 0 := rfl
@[simp] theorem State.clearValues_rsN : (s.clearValues).rsN = s.rsN := rfl
@[simp] theorem State.clearValues_rsGen : (s.clearValues).rsGen = s.rsGen := rfl
@[simp] theorem State.clearValues_rsRem : (s.clearValues).rsRem = s.rsRem := rfl
@[simp] theorem State.clearValues_matVer : (s.clearValues).matVer = s.matVer := rfl
@[simp] theorem State.clearValues_mat : (s.clearValues).mat = s.mat := rfl
@[simp] theorem State.clearValues_penA : (s.clearValues).penA = s.penA := rfl
@[simp] theorem State.clearValues_penB : (s.clearValues).penB = s.penB := rfl
@[simp] theorem State.clearValues_penC : (s.clearValues).penC = s.penC := rfl
@[simp] theorem State.clearValues_penD : (s.clearValues).penD = s.penD := rfl
@[simp] theorem State.clearValues_penTotal : (s.clearValues).penTotal = s.penTotal := rfl
@[simp] theorem State.clearValues_penValid : (s.clearValues).penValid = s.penValid := rfl
@[simp] theorem State.clearValues_bestId : (s.clearValues).bestId = s.bestId := rfl
@[simp] theorem State.clearValues_bestPen : (s.clearValues).bestPen = s.bestPen := rfl
@[simp] theorem State.clearValues_bestValid : (s.clearValues).bestValid = s.bestValid := rfl
@[simp] theorem State.clearValues_inputs : (s.clearValues).inputs = s.inputs := rfl
@[simp] theorem State.clearValues_responses : (s.clearValues).responses = s.responses := rfl

/-! ## `State.pushValue` -/

@[simp] theorem State.pushValue_expRom (b : Byte) : (s.pushValue b).expRom = s.expRom := rfl
@[simp] theorem State.pushValue_logRom (b : Byte) : (s.pushValue b).logRom = s.logRom := rfl
@[simp] theorem State.pushValue_dbuf (b : Byte) : (s.pushValue b).dbuf = s.dbuf := rfl
@[simp] theorem State.pushValue_dlen (b : Byte) : (s.pushValue b).dlen = s.dlen := rfl
@[simp] theorem State.pushValue_vbuf (b : Byte) : (s.pushValue b).vbuf = writeMem blankByte s.vbuf s.vlen.toNat b := rfl
@[simp] theorem State.pushValue_vlen (b : Byte) : (s.pushValue b).vlen = s.vlen + 1 := rfl
@[simp] theorem State.pushValue_rsN (b : Byte) : (s.pushValue b).rsN = s.rsN := rfl
@[simp] theorem State.pushValue_rsGen (b : Byte) : (s.pushValue b).rsGen = s.rsGen := rfl
@[simp] theorem State.pushValue_rsRem (b : Byte) : (s.pushValue b).rsRem = s.rsRem := rfl
@[simp] theorem State.pushValue_matVer (b : Byte) : (s.pushValue b).matVer = s.matVer := rfl
@[simp] theorem State.pushValue_mat (b : Byte) : (s.pushValue b).mat = s.mat := rfl
@[simp] theorem State.pushValue_penA (b : Byte) : (s.pushValue b).penA = s.penA := rfl
@[simp] theorem State.pushValue_penB (b : Byte) : (s.pushValue b).penB = s.penB := rfl
@[simp] theorem State.pushValue_penC (b : Byte) : (s.pushValue b).penC = s.penC := rfl
@[simp] theorem State.pushValue_penD (b : Byte) : (s.pushValue b).penD = s.penD := rfl
@[simp] theorem State.pushValue_penTotal (b : Byte) : (s.pushValue b).penTotal = s.penTotal := rfl
@[simp] theorem State.pushValue_penValid (b : Byte) : (s.pushValue b).penValid = s.penValid := rfl
@[simp] theorem State.pushValue_bestId (b : Byte) : (s.pushValue b).bestId = s.bestId := rfl
@[simp] theorem State.pushValue_bestPen (b : Byte) : (s.pushValue b).bestPen = s.bestPen := rfl
@[simp] theorem State.pushValue_bestValid (b : Byte) : (s.pushValue b).bestValid = s.bestValid := rfl
@[simp] theorem State.pushValue_inputs (b : Byte) : (s.pushValue b).inputs = s.inputs := rfl
@[simp] theorem State.pushValue_responses (b : Byte) : (s.pushValue b).responses = s.responses := rfl

/-! ## `State.setValues` -/

@[simp] theorem State.setValues_expRom (out : List Byte) : (s.setValues out).expRom = s.expRom := rfl
@[simp] theorem State.setValues_logRom (out : List Byte) : (s.setValues out).logRom = s.logRom := rfl
@[simp] theorem State.setValues_dbuf (out : List Byte) : (s.setValues out).dbuf = s.dbuf := rfl
@[simp] theorem State.setValues_dlen (out : List Byte) : (s.setValues out).dlen = s.dlen := rfl
@[simp] theorem State.setValues_vbuf (out : List Byte) : (s.setValues out).vbuf = writeSeq blankByte s.vbuf 0 out := rfl
@[simp] theorem State.setValues_vlen (out : List Byte) : (s.setValues out).vlen = BitVec.ofNat 13 out.length := rfl
@[simp] theorem State.setValues_rsN (out : List Byte) : (s.setValues out).rsN = s.rsN := rfl
@[simp] theorem State.setValues_rsGen (out : List Byte) : (s.setValues out).rsGen = s.rsGen := rfl
@[simp] theorem State.setValues_rsRem (out : List Byte) : (s.setValues out).rsRem = s.rsRem := rfl
@[simp] theorem State.setValues_matVer (out : List Byte) : (s.setValues out).matVer = s.matVer := rfl
@[simp] theorem State.setValues_mat (out : List Byte) : (s.setValues out).mat = s.mat := rfl
@[simp] theorem State.setValues_penA (out : List Byte) : (s.setValues out).penA = s.penA := rfl
@[simp] theorem State.setValues_penB (out : List Byte) : (s.setValues out).penB = s.penB := rfl
@[simp] theorem State.setValues_penC (out : List Byte) : (s.setValues out).penC = s.penC := rfl
@[simp] theorem State.setValues_penD (out : List Byte) : (s.setValues out).penD = s.penD := rfl
@[simp] theorem State.setValues_penTotal (out : List Byte) : (s.setValues out).penTotal = s.penTotal := rfl
@[simp] theorem State.setValues_penValid (out : List Byte) : (s.setValues out).penValid = s.penValid := rfl
@[simp] theorem State.setValues_bestId (out : List Byte) : (s.setValues out).bestId = s.bestId := rfl
@[simp] theorem State.setValues_bestPen (out : List Byte) : (s.setValues out).bestPen = s.bestPen := rfl
@[simp] theorem State.setValues_bestValid (out : List Byte) : (s.setValues out).bestValid = s.bestValid := rfl
@[simp] theorem State.setValues_inputs (out : List Byte) : (s.setValues out).inputs = s.inputs := rfl
@[simp] theorem State.setValues_responses (out : List Byte) : (s.setValues out).responses = s.responses := rfl

/-! ## `State.setGenerator` -/

@[simp] theorem State.setGenerator_expRom (n : BitVec 8) (g : List Byte) : (s.setGenerator n g).expRom = s.expRom := rfl
@[simp] theorem State.setGenerator_logRom (n : BitVec 8) (g : List Byte) : (s.setGenerator n g).logRom = s.logRom := rfl
@[simp] theorem State.setGenerator_dbuf (n : BitVec 8) (g : List Byte) : (s.setGenerator n g).dbuf = s.dbuf := rfl
@[simp] theorem State.setGenerator_dlen (n : BitVec 8) (g : List Byte) : (s.setGenerator n g).dlen = s.dlen := rfl
@[simp] theorem State.setGenerator_vbuf (n : BitVec 8) (g : List Byte) : (s.setGenerator n g).vbuf = s.vbuf := rfl
@[simp] theorem State.setGenerator_vlen (n : BitVec 8) (g : List Byte) : (s.setGenerator n g).vlen = s.vlen := rfl
@[simp] theorem State.setGenerator_rsN (n : BitVec 8) (g : List Byte) : (s.setGenerator n g).rsN = n := rfl
@[simp] theorem State.setGenerator_rsGen (n : BitVec 8) (g : List Byte) : (s.setGenerator n g).rsGen = writeSeq blankByte s.rsGen 0 g := rfl
@[simp] theorem State.setGenerator_rsRem (n : BitVec 8) (g : List Byte) : (s.setGenerator n g).rsRem = writeSeq blankByte s.rsRem 0 (List.replicate n.toNat 0) := rfl
@[simp] theorem State.setGenerator_matVer (n : BitVec 8) (g : List Byte) : (s.setGenerator n g).matVer = s.matVer := rfl
@[simp] theorem State.setGenerator_mat (n : BitVec 8) (g : List Byte) : (s.setGenerator n g).mat = s.mat := rfl
@[simp] theorem State.setGenerator_penA (n : BitVec 8) (g : List Byte) : (s.setGenerator n g).penA = s.penA := rfl
@[simp] theorem State.setGenerator_penB (n : BitVec 8) (g : List Byte) : (s.setGenerator n g).penB = s.penB := rfl
@[simp] theorem State.setGenerator_penC (n : BitVec 8) (g : List Byte) : (s.setGenerator n g).penC = s.penC := rfl
@[simp] theorem State.setGenerator_penD (n : BitVec 8) (g : List Byte) : (s.setGenerator n g).penD = s.penD := rfl
@[simp] theorem State.setGenerator_penTotal (n : BitVec 8) (g : List Byte) : (s.setGenerator n g).penTotal = s.penTotal := rfl
@[simp] theorem State.setGenerator_penValid (n : BitVec 8) (g : List Byte) : (s.setGenerator n g).penValid = s.penValid := rfl
@[simp] theorem State.setGenerator_bestId (n : BitVec 8) (g : List Byte) : (s.setGenerator n g).bestId = s.bestId := rfl
@[simp] theorem State.setGenerator_bestPen (n : BitVec 8) (g : List Byte) : (s.setGenerator n g).bestPen = s.bestPen := rfl
@[simp] theorem State.setGenerator_bestValid (n : BitVec 8) (g : List Byte) : (s.setGenerator n g).bestValid = s.bestValid := rfl
@[simp] theorem State.setGenerator_inputs (n : BitVec 8) (g : List Byte) : (s.setGenerator n g).inputs = s.inputs := rfl
@[simp] theorem State.setGenerator_responses (n : BitVec 8) (g : List Byte) : (s.setGenerator n g).responses = s.responses := rfl

/-! ## `State.setRemainder` -/

@[simp] theorem State.setRemainder_expRom (rem : List Byte) : (s.setRemainder rem).expRom = s.expRom := rfl
@[simp] theorem State.setRemainder_logRom (rem : List Byte) : (s.setRemainder rem).logRom = s.logRom := rfl
@[simp] theorem State.setRemainder_dbuf (rem : List Byte) : (s.setRemainder rem).dbuf = s.dbuf := rfl
@[simp] theorem State.setRemainder_dlen (rem : List Byte) : (s.setRemainder rem).dlen = s.dlen := rfl
@[simp] theorem State.setRemainder_vbuf (rem : List Byte) : (s.setRemainder rem).vbuf = s.vbuf := rfl
@[simp] theorem State.setRemainder_vlen (rem : List Byte) : (s.setRemainder rem).vlen = s.vlen := rfl
@[simp] theorem State.setRemainder_rsN (rem : List Byte) : (s.setRemainder rem).rsN = s.rsN := rfl
@[simp] theorem State.setRemainder_rsGen (rem : List Byte) : (s.setRemainder rem).rsGen = s.rsGen := rfl
@[simp] theorem State.setRemainder_rsRem (rem : List Byte) : (s.setRemainder rem).rsRem = writeSeq blankByte s.rsRem 0 rem := rfl
@[simp] theorem State.setRemainder_matVer (rem : List Byte) : (s.setRemainder rem).matVer = s.matVer := rfl
@[simp] theorem State.setRemainder_mat (rem : List Byte) : (s.setRemainder rem).mat = s.mat := rfl
@[simp] theorem State.setRemainder_penA (rem : List Byte) : (s.setRemainder rem).penA = s.penA := rfl
@[simp] theorem State.setRemainder_penB (rem : List Byte) : (s.setRemainder rem).penB = s.penB := rfl
@[simp] theorem State.setRemainder_penC (rem : List Byte) : (s.setRemainder rem).penC = s.penC := rfl
@[simp] theorem State.setRemainder_penD (rem : List Byte) : (s.setRemainder rem).penD = s.penD := rfl
@[simp] theorem State.setRemainder_penTotal (rem : List Byte) : (s.setRemainder rem).penTotal = s.penTotal := rfl
@[simp] theorem State.setRemainder_penValid (rem : List Byte) : (s.setRemainder rem).penValid = s.penValid := rfl
@[simp] theorem State.setRemainder_bestId (rem : List Byte) : (s.setRemainder rem).bestId = s.bestId := rfl
@[simp] theorem State.setRemainder_bestPen (rem : List Byte) : (s.setRemainder rem).bestPen = s.bestPen := rfl
@[simp] theorem State.setRemainder_bestValid (rem : List Byte) : (s.setRemainder rem).bestValid = s.bestValid := rfl
@[simp] theorem State.setRemainder_inputs (rem : List Byte) : (s.setRemainder rem).inputs = s.inputs := rfl
@[simp] theorem State.setRemainder_responses (rem : List Byte) : (s.setRemainder rem).responses = s.responses := rfl

/-! ## `State.initMatrix` -/

@[simp] theorem State.initMatrix_expRom (v : BitVec 6) : (s.initMatrix v).expRom = s.expRom := rfl
@[simp] theorem State.initMatrix_logRom (v : BitVec 6) : (s.initMatrix v).logRom = s.logRom := rfl
@[simp] theorem State.initMatrix_dbuf (v : BitVec 6) : (s.initMatrix v).dbuf = s.dbuf := rfl
@[simp] theorem State.initMatrix_dlen (v : BitVec 6) : (s.initMatrix v).dlen = s.dlen := rfl
@[simp] theorem State.initMatrix_vbuf (v : BitVec 6) : (s.initMatrix v).vbuf = s.vbuf := rfl
@[simp] theorem State.initMatrix_vlen (v : BitVec 6) : (s.initMatrix v).vlen = s.vlen := rfl
@[simp] theorem State.initMatrix_rsN (v : BitVec 6) : (s.initMatrix v).rsN = s.rsN := rfl
@[simp] theorem State.initMatrix_rsGen (v : BitVec 6) : (s.initMatrix v).rsGen = s.rsGen := rfl
@[simp] theorem State.initMatrix_rsRem (v : BitVec 6) : (s.initMatrix v).rsRem = s.rsRem := rfl
@[simp] theorem State.initMatrix_matVer (v : BitVec 6) : (s.initMatrix v).matVer = v := rfl
@[simp] theorem State.initMatrix_mat (v : BitVec 6) : (s.initMatrix v).mat = clearSquare (sideOf v) s.mat := rfl
@[simp] theorem State.initMatrix_penA (v : BitVec 6) : (s.initMatrix v).penA = s.penA := rfl
@[simp] theorem State.initMatrix_penB (v : BitVec 6) : (s.initMatrix v).penB = s.penB := rfl
@[simp] theorem State.initMatrix_penC (v : BitVec 6) : (s.initMatrix v).penC = s.penC := rfl
@[simp] theorem State.initMatrix_penD (v : BitVec 6) : (s.initMatrix v).penD = s.penD := rfl
@[simp] theorem State.initMatrix_penTotal (v : BitVec 6) : (s.initMatrix v).penTotal = s.penTotal := rfl
@[simp] theorem State.initMatrix_penValid (v : BitVec 6) : (s.initMatrix v).penValid = false := rfl
@[simp] theorem State.initMatrix_bestId (v : BitVec 6) : (s.initMatrix v).bestId = s.bestId := rfl
@[simp] theorem State.initMatrix_bestPen (v : BitVec 6) : (s.initMatrix v).bestPen = s.bestPen := rfl
@[simp] theorem State.initMatrix_bestValid (v : BitVec 6) : (s.initMatrix v).bestValid = false := rfl
@[simp] theorem State.initMatrix_inputs (v : BitVec 6) : (s.initMatrix v).inputs = s.inputs := rfl
@[simp] theorem State.initMatrix_responses (v : BitVec 6) : (s.initMatrix v).responses = s.responses := rfl

/-! ## `State.writeCell` -/

@[simp] theorem State.writeCell_expRom (r c : Nat) (x : MatCell) : (s.writeCell r c x).expRom = s.expRom := rfl
@[simp] theorem State.writeCell_logRom (r c : Nat) (x : MatCell) : (s.writeCell r c x).logRom = s.logRom := rfl
@[simp] theorem State.writeCell_dbuf (r c : Nat) (x : MatCell) : (s.writeCell r c x).dbuf = s.dbuf := rfl
@[simp] theorem State.writeCell_dlen (r c : Nat) (x : MatCell) : (s.writeCell r c x).dlen = s.dlen := rfl
@[simp] theorem State.writeCell_vbuf (r c : Nat) (x : MatCell) : (s.writeCell r c x).vbuf = s.vbuf := rfl
@[simp] theorem State.writeCell_vlen (r c : Nat) (x : MatCell) : (s.writeCell r c x).vlen = s.vlen := rfl
@[simp] theorem State.writeCell_rsN (r c : Nat) (x : MatCell) : (s.writeCell r c x).rsN = s.rsN := rfl
@[simp] theorem State.writeCell_rsGen (r c : Nat) (x : MatCell) : (s.writeCell r c x).rsGen = s.rsGen := rfl
@[simp] theorem State.writeCell_rsRem (r c : Nat) (x : MatCell) : (s.writeCell r c x).rsRem = s.rsRem := rfl
@[simp] theorem State.writeCell_matVer (r c : Nat) (x : MatCell) : (s.writeCell r c x).matVer = s.matVer := rfl
@[simp] theorem State.writeCell_mat (r c : Nat) (x : MatCell) : (s.writeCell r c x).mat = writeMem blankCell s.mat (cellKey r c) x := rfl
@[simp] theorem State.writeCell_penA (r c : Nat) (x : MatCell) : (s.writeCell r c x).penA = s.penA := rfl
@[simp] theorem State.writeCell_penB (r c : Nat) (x : MatCell) : (s.writeCell r c x).penB = s.penB := rfl
@[simp] theorem State.writeCell_penC (r c : Nat) (x : MatCell) : (s.writeCell r c x).penC = s.penC := rfl
@[simp] theorem State.writeCell_penD (r c : Nat) (x : MatCell) : (s.writeCell r c x).penD = s.penD := rfl
@[simp] theorem State.writeCell_penTotal (r c : Nat) (x : MatCell) : (s.writeCell r c x).penTotal = s.penTotal := rfl
@[simp] theorem State.writeCell_penValid (r c : Nat) (x : MatCell) : (s.writeCell r c x).penValid = false := rfl
@[simp] theorem State.writeCell_bestId (r c : Nat) (x : MatCell) : (s.writeCell r c x).bestId = s.bestId := rfl
@[simp] theorem State.writeCell_bestPen (r c : Nat) (x : MatCell) : (s.writeCell r c x).bestPen = s.bestPen := rfl
@[simp] theorem State.writeCell_bestValid (r c : Nat) (x : MatCell) : (s.writeCell r c x).bestValid = s.bestValid := rfl
@[simp] theorem State.writeCell_inputs (r c : Nat) (x : MatCell) : (s.writeCell r c x).inputs = s.inputs := rfl
@[simp] theorem State.writeCell_responses (r c : Nat) (x : MatCell) : (s.writeCell r c x).responses = s.responses := rfl

/-! ## `State.setMatrix` -/

@[simp] theorem State.setMatrix_expRom (m : Memory MatCell) : (s.setMatrix m).expRom = s.expRom := rfl
@[simp] theorem State.setMatrix_logRom (m : Memory MatCell) : (s.setMatrix m).logRom = s.logRom := rfl
@[simp] theorem State.setMatrix_dbuf (m : Memory MatCell) : (s.setMatrix m).dbuf = s.dbuf := rfl
@[simp] theorem State.setMatrix_dlen (m : Memory MatCell) : (s.setMatrix m).dlen = s.dlen := rfl
@[simp] theorem State.setMatrix_vbuf (m : Memory MatCell) : (s.setMatrix m).vbuf = s.vbuf := rfl
@[simp] theorem State.setMatrix_vlen (m : Memory MatCell) : (s.setMatrix m).vlen = s.vlen := rfl
@[simp] theorem State.setMatrix_rsN (m : Memory MatCell) : (s.setMatrix m).rsN = s.rsN := rfl
@[simp] theorem State.setMatrix_rsGen (m : Memory MatCell) : (s.setMatrix m).rsGen = s.rsGen := rfl
@[simp] theorem State.setMatrix_rsRem (m : Memory MatCell) : (s.setMatrix m).rsRem = s.rsRem := rfl
@[simp] theorem State.setMatrix_matVer (m : Memory MatCell) : (s.setMatrix m).matVer = s.matVer := rfl
@[simp] theorem State.setMatrix_mat (m : Memory MatCell) : (s.setMatrix m).mat = m := rfl
@[simp] theorem State.setMatrix_penA (m : Memory MatCell) : (s.setMatrix m).penA = s.penA := rfl
@[simp] theorem State.setMatrix_penB (m : Memory MatCell) : (s.setMatrix m).penB = s.penB := rfl
@[simp] theorem State.setMatrix_penC (m : Memory MatCell) : (s.setMatrix m).penC = s.penC := rfl
@[simp] theorem State.setMatrix_penD (m : Memory MatCell) : (s.setMatrix m).penD = s.penD := rfl
@[simp] theorem State.setMatrix_penTotal (m : Memory MatCell) : (s.setMatrix m).penTotal = s.penTotal := rfl
@[simp] theorem State.setMatrix_penValid (m : Memory MatCell) : (s.setMatrix m).penValid = false := rfl
@[simp] theorem State.setMatrix_bestId (m : Memory MatCell) : (s.setMatrix m).bestId = s.bestId := rfl
@[simp] theorem State.setMatrix_bestPen (m : Memory MatCell) : (s.setMatrix m).bestPen = s.bestPen := rfl
@[simp] theorem State.setMatrix_bestValid (m : Memory MatCell) : (s.setMatrix m).bestValid = s.bestValid := rfl
@[simp] theorem State.setMatrix_inputs (m : Memory MatCell) : (s.setMatrix m).inputs = s.inputs := rfl
@[simp] theorem State.setMatrix_responses (m : Memory MatCell) : (s.setMatrix m).responses = s.responses := rfl

/-! ## `State.setPenalty` -/

@[simp] theorem State.setPenalty_expRom (a b c d : Nat) : (s.setPenalty a b c d).expRom = s.expRom := rfl
@[simp] theorem State.setPenalty_logRom (a b c d : Nat) : (s.setPenalty a b c d).logRom = s.logRom := rfl
@[simp] theorem State.setPenalty_dbuf (a b c d : Nat) : (s.setPenalty a b c d).dbuf = s.dbuf := rfl
@[simp] theorem State.setPenalty_dlen (a b c d : Nat) : (s.setPenalty a b c d).dlen = s.dlen := rfl
@[simp] theorem State.setPenalty_vbuf (a b c d : Nat) : (s.setPenalty a b c d).vbuf = s.vbuf := rfl
@[simp] theorem State.setPenalty_vlen (a b c d : Nat) : (s.setPenalty a b c d).vlen = s.vlen := rfl
@[simp] theorem State.setPenalty_rsN (a b c d : Nat) : (s.setPenalty a b c d).rsN = s.rsN := rfl
@[simp] theorem State.setPenalty_rsGen (a b c d : Nat) : (s.setPenalty a b c d).rsGen = s.rsGen := rfl
@[simp] theorem State.setPenalty_rsRem (a b c d : Nat) : (s.setPenalty a b c d).rsRem = s.rsRem := rfl
@[simp] theorem State.setPenalty_matVer (a b c d : Nat) : (s.setPenalty a b c d).matVer = s.matVer := rfl
@[simp] theorem State.setPenalty_mat (a b c d : Nat) : (s.setPenalty a b c d).mat = s.mat := rfl
@[simp] theorem State.setPenalty_penA (a b c d : Nat) : (s.setPenalty a b c d).penA = natWord a := rfl
@[simp] theorem State.setPenalty_penB (a b c d : Nat) : (s.setPenalty a b c d).penB = natWord b := rfl
@[simp] theorem State.setPenalty_penC (a b c d : Nat) : (s.setPenalty a b c d).penC = natWord c := rfl
@[simp] theorem State.setPenalty_penD (a b c d : Nat) : (s.setPenalty a b c d).penD = natWord d := rfl
@[simp] theorem State.setPenalty_penTotal (a b c d : Nat) : (s.setPenalty a b c d).penTotal = natWord (a + b + c + d) := rfl
@[simp] theorem State.setPenalty_penValid (a b c d : Nat) : (s.setPenalty a b c d).penValid = true := rfl
@[simp] theorem State.setPenalty_bestId (a b c d : Nat) : (s.setPenalty a b c d).bestId = s.bestId := rfl
@[simp] theorem State.setPenalty_bestPen (a b c d : Nat) : (s.setPenalty a b c d).bestPen = s.bestPen := rfl
@[simp] theorem State.setPenalty_bestValid (a b c d : Nat) : (s.setPenalty a b c d).bestValid = s.bestValid := rfl
@[simp] theorem State.setPenalty_inputs (a b c d : Nat) : (s.setPenalty a b c d).inputs = s.inputs := rfl
@[simp] theorem State.setPenalty_responses (a b c d : Nat) : (s.setPenalty a b c d).responses = s.responses := rfl

/-! ## `State.recordBest` -/

@[simp] theorem State.recordBest_expRom (id : BitVec 3) : (s.recordBest id).expRom = s.expRom := rfl
@[simp] theorem State.recordBest_logRom (id : BitVec 3) : (s.recordBest id).logRom = s.logRom := rfl
@[simp] theorem State.recordBest_dbuf (id : BitVec 3) : (s.recordBest id).dbuf = s.dbuf := rfl
@[simp] theorem State.recordBest_dlen (id : BitVec 3) : (s.recordBest id).dlen = s.dlen := rfl
@[simp] theorem State.recordBest_vbuf (id : BitVec 3) : (s.recordBest id).vbuf = s.vbuf := rfl
@[simp] theorem State.recordBest_vlen (id : BitVec 3) : (s.recordBest id).vlen = s.vlen := rfl
@[simp] theorem State.recordBest_rsN (id : BitVec 3) : (s.recordBest id).rsN = s.rsN := rfl
@[simp] theorem State.recordBest_rsGen (id : BitVec 3) : (s.recordBest id).rsGen = s.rsGen := rfl
@[simp] theorem State.recordBest_rsRem (id : BitVec 3) : (s.recordBest id).rsRem = s.rsRem := rfl
@[simp] theorem State.recordBest_matVer (id : BitVec 3) : (s.recordBest id).matVer = s.matVer := rfl
@[simp] theorem State.recordBest_mat (id : BitVec 3) : (s.recordBest id).mat = s.mat := rfl
@[simp] theorem State.recordBest_penA (id : BitVec 3) : (s.recordBest id).penA = s.penA := rfl
@[simp] theorem State.recordBest_penB (id : BitVec 3) : (s.recordBest id).penB = s.penB := rfl
@[simp] theorem State.recordBest_penC (id : BitVec 3) : (s.recordBest id).penC = s.penC := rfl
@[simp] theorem State.recordBest_penD (id : BitVec 3) : (s.recordBest id).penD = s.penD := rfl
@[simp] theorem State.recordBest_penTotal (id : BitVec 3) : (s.recordBest id).penTotal = s.penTotal := rfl
@[simp] theorem State.recordBest_penValid (id : BitVec 3) : (s.recordBest id).penValid = s.penValid := rfl
@[simp] theorem State.recordBest_bestId (id : BitVec 3) : (s.recordBest id).bestId = id := rfl
@[simp] theorem State.recordBest_bestPen (id : BitVec 3) : (s.recordBest id).bestPen = s.penTotal := rfl
@[simp] theorem State.recordBest_bestValid (id : BitVec 3) : (s.recordBest id).bestValid = true := rfl
@[simp] theorem State.recordBest_inputs (id : BitVec 3) : (s.recordBest id).inputs = s.inputs := rfl
@[simp] theorem State.recordBest_responses (id : BitVec 3) : (s.recordBest id).responses = s.responses := rfl

/-! ## `State.clearBest` -/

@[simp] theorem State.clearBest_expRom : (s.clearBest).expRom = s.expRom := rfl
@[simp] theorem State.clearBest_logRom : (s.clearBest).logRom = s.logRom := rfl
@[simp] theorem State.clearBest_dbuf : (s.clearBest).dbuf = s.dbuf := rfl
@[simp] theorem State.clearBest_dlen : (s.clearBest).dlen = s.dlen := rfl
@[simp] theorem State.clearBest_vbuf : (s.clearBest).vbuf = s.vbuf := rfl
@[simp] theorem State.clearBest_vlen : (s.clearBest).vlen = s.vlen := rfl
@[simp] theorem State.clearBest_rsN : (s.clearBest).rsN = s.rsN := rfl
@[simp] theorem State.clearBest_rsGen : (s.clearBest).rsGen = s.rsGen := rfl
@[simp] theorem State.clearBest_rsRem : (s.clearBest).rsRem = s.rsRem := rfl
@[simp] theorem State.clearBest_matVer : (s.clearBest).matVer = s.matVer := rfl
@[simp] theorem State.clearBest_mat : (s.clearBest).mat = s.mat := rfl
@[simp] theorem State.clearBest_penA : (s.clearBest).penA = s.penA := rfl
@[simp] theorem State.clearBest_penB : (s.clearBest).penB = s.penB := rfl
@[simp] theorem State.clearBest_penC : (s.clearBest).penC = s.penC := rfl
@[simp] theorem State.clearBest_penD : (s.clearBest).penD = s.penD := rfl
@[simp] theorem State.clearBest_penTotal : (s.clearBest).penTotal = s.penTotal := rfl
@[simp] theorem State.clearBest_penValid : (s.clearBest).penValid = s.penValid := rfl
@[simp] theorem State.clearBest_bestId : (s.clearBest).bestId = s.bestId := rfl
@[simp] theorem State.clearBest_bestPen : (s.clearBest).bestPen = s.bestPen := rfl
@[simp] theorem State.clearBest_bestValid : (s.clearBest).bestValid = false := rfl
@[simp] theorem State.clearBest_inputs : (s.clearBest).inputs = s.inputs := rfl
@[simp] theorem State.clearBest_responses : (s.clearBest).responses = s.responses := rfl

/-! ## `State.softReset` -/

@[simp] theorem State.softReset_expRom : (s.softReset).expRom = s.expRom := rfl
@[simp] theorem State.softReset_logRom : (s.softReset).logRom = s.logRom := rfl
@[simp] theorem State.softReset_dbuf : (s.softReset).dbuf = s.dbuf := rfl
@[simp] theorem State.softReset_dlen : (s.softReset).dlen = 0 := rfl
@[simp] theorem State.softReset_vbuf : (s.softReset).vbuf = s.vbuf := rfl
@[simp] theorem State.softReset_vlen : (s.softReset).vlen = 0 := rfl
@[simp] theorem State.softReset_rsN : (s.softReset).rsN = 0 := rfl
@[simp] theorem State.softReset_rsGen : (s.softReset).rsGen = s.rsGen := rfl
@[simp] theorem State.softReset_rsRem : (s.softReset).rsRem = s.rsRem := rfl
@[simp] theorem State.softReset_matVer : (s.softReset).matVer = 0 := rfl
@[simp] theorem State.softReset_mat : (s.softReset).mat = s.mat := rfl
@[simp] theorem State.softReset_penA : (s.softReset).penA = s.penA := rfl
@[simp] theorem State.softReset_penB : (s.softReset).penB = s.penB := rfl
@[simp] theorem State.softReset_penC : (s.softReset).penC = s.penC := rfl
@[simp] theorem State.softReset_penD : (s.softReset).penD = s.penD := rfl
@[simp] theorem State.softReset_penTotal : (s.softReset).penTotal = s.penTotal := rfl
@[simp] theorem State.softReset_penValid : (s.softReset).penValid = false := rfl
@[simp] theorem State.softReset_bestId : (s.softReset).bestId = s.bestId := rfl
@[simp] theorem State.softReset_bestPen : (s.softReset).bestPen = s.bestPen := rfl
@[simp] theorem State.softReset_bestValid : (s.softReset).bestValid = false := rfl
@[simp] theorem State.softReset_inputs : (s.softReset).inputs = s.inputs := rfl
@[simp] theorem State.softReset_responses : (s.softReset).responses = s.responses := rfl

/-! ## `State.withInputs` -/

@[simp] theorem State.withInputs_expRom (rest : List HostInput) : (s.withInputs rest).expRom = s.expRom := rfl
@[simp] theorem State.withInputs_logRom (rest : List HostInput) : (s.withInputs rest).logRom = s.logRom := rfl
@[simp] theorem State.withInputs_dbuf (rest : List HostInput) : (s.withInputs rest).dbuf = s.dbuf := rfl
@[simp] theorem State.withInputs_dlen (rest : List HostInput) : (s.withInputs rest).dlen = s.dlen := rfl
@[simp] theorem State.withInputs_vbuf (rest : List HostInput) : (s.withInputs rest).vbuf = s.vbuf := rfl
@[simp] theorem State.withInputs_vlen (rest : List HostInput) : (s.withInputs rest).vlen = s.vlen := rfl
@[simp] theorem State.withInputs_rsN (rest : List HostInput) : (s.withInputs rest).rsN = s.rsN := rfl
@[simp] theorem State.withInputs_rsGen (rest : List HostInput) : (s.withInputs rest).rsGen = s.rsGen := rfl
@[simp] theorem State.withInputs_rsRem (rest : List HostInput) : (s.withInputs rest).rsRem = s.rsRem := rfl
@[simp] theorem State.withInputs_matVer (rest : List HostInput) : (s.withInputs rest).matVer = s.matVer := rfl
@[simp] theorem State.withInputs_mat (rest : List HostInput) : (s.withInputs rest).mat = s.mat := rfl
@[simp] theorem State.withInputs_penA (rest : List HostInput) : (s.withInputs rest).penA = s.penA := rfl
@[simp] theorem State.withInputs_penB (rest : List HostInput) : (s.withInputs rest).penB = s.penB := rfl
@[simp] theorem State.withInputs_penC (rest : List HostInput) : (s.withInputs rest).penC = s.penC := rfl
@[simp] theorem State.withInputs_penD (rest : List HostInput) : (s.withInputs rest).penD = s.penD := rfl
@[simp] theorem State.withInputs_penTotal (rest : List HostInput) : (s.withInputs rest).penTotal = s.penTotal := rfl
@[simp] theorem State.withInputs_penValid (rest : List HostInput) : (s.withInputs rest).penValid = s.penValid := rfl
@[simp] theorem State.withInputs_bestId (rest : List HostInput) : (s.withInputs rest).bestId = s.bestId := rfl
@[simp] theorem State.withInputs_bestPen (rest : List HostInput) : (s.withInputs rest).bestPen = s.bestPen := rfl
@[simp] theorem State.withInputs_bestValid (rest : List HostInput) : (s.withInputs rest).bestValid = s.bestValid := rfl
@[simp] theorem State.withInputs_inputs (rest : List HostInput) : (s.withInputs rest).inputs = rest := rfl
@[simp] theorem State.withInputs_responses (rest : List HostInput) : (s.withInputs rest).responses = s.responses := rfl

/-! ## `State.hardReset` -/

@[simp] theorem State.hardReset_expRom : s.hardReset.expRom = expTable := rfl
@[simp] theorem State.hardReset_logRom : s.hardReset.logRom = logTable := rfl
@[simp] theorem State.hardReset_dbuf : s.hardReset.dbuf = [] := rfl
@[simp] theorem State.hardReset_dlen : s.hardReset.dlen = 0 := rfl
@[simp] theorem State.hardReset_vbuf : s.hardReset.vbuf = [] := rfl
@[simp] theorem State.hardReset_vlen : s.hardReset.vlen = 0 := rfl
@[simp] theorem State.hardReset_rsN : s.hardReset.rsN = 0 := rfl
@[simp] theorem State.hardReset_rsGen : s.hardReset.rsGen = [] := rfl
@[simp] theorem State.hardReset_rsRem : s.hardReset.rsRem = [] := rfl
@[simp] theorem State.hardReset_matVer : s.hardReset.matVer = 0 := rfl
@[simp] theorem State.hardReset_mat : s.hardReset.mat = [] := rfl
@[simp] theorem State.hardReset_penA : s.hardReset.penA = 0 := rfl
@[simp] theorem State.hardReset_penB : s.hardReset.penB = 0 := rfl
@[simp] theorem State.hardReset_penC : s.hardReset.penC = 0 := rfl
@[simp] theorem State.hardReset_penD : s.hardReset.penD = 0 := rfl
@[simp] theorem State.hardReset_penTotal : s.hardReset.penTotal = 0 := rfl
@[simp] theorem State.hardReset_penValid : s.hardReset.penValid = false := rfl
@[simp] theorem State.hardReset_bestId : s.hardReset.bestId = 0 := rfl
@[simp] theorem State.hardReset_bestPen : s.hardReset.bestPen = 0 := rfl
@[simp] theorem State.hardReset_bestValid : s.hardReset.bestValid = false := rfl
@[simp] theorem State.hardReset_inputs : s.hardReset.inputs = s.inputs := rfl
@[simp] theorem State.hardReset_responses : s.hardReset.responses = s.responses := rfl

/-! ## `State.offerBest` -/

/-- An offer records the candidate or leaves the state alone (46 R251). -/
theorem State.offerBest_cases (id : BitVec 3) :
    (s.offerBest id = s.recordBest id ∧ (s.bestValid = false ∨ s.penTotal.toNat < s.bestPen.toNat)) ∨
      (s.offerBest id = s ∧ s.bestValid = true ∧ s.bestPen.toNat ≤ s.penTotal.toNat) := by
  by_cases h : s.bestValid = false ∨ s.penTotal.toNat < s.bestPen.toNat
  · exact .inl ⟨if_pos h, h⟩
  · refine .inr ⟨if_neg h, ?_⟩
    rw [not_or] at h
    exact ⟨by simpa using h.1, Nat.le_of_not_lt h.2⟩

end Sys2Proof.Machine
end

