-- ==== Sys2Proof/Laws/Ops.lean ====
section
/-! SUPPORT. What each shared operation can do, said once: the responses, the operand forms, the memories' contents
through the named state changes, and one step of the machine. -/

namespace Sys2Proof.Machine

/-! ## Responses -/

theorem respond_eq (s : State) (v : Word) : respond s v = .next (s.emit (.ok v)) := rfl

theorem fail_eq (s : State) (c : FailCode) : fail s c = .next (s.emit (.fail c)) := rfl

/-- A response given by `respond` is the state with that response. -/
theorem respond_next {s t : State} {v : Word} : respond s v = .next t ↔ t = s.emit (.ok v) := by
  constructor
  · intro h
    injection h with h
    exact h.symm
  · rintro rfl
    rfl

/-- A failure is the state with that failure given, and nothing else changed (60 R322). -/
theorem fail_next {s t : State} {c : FailCode} : fail s c = .next t ↔ t = s.emit (.fail c) := by
  constructor
  · intro h
    injection h with h
    exact h.symm
  · rintro rfl
    rfl

/-! ## Operand forms -/

theorem extent_ok {s : State} {base len : BitVec 12} (h : s.extentOk base len) :
    extent s base len = .ok (s.extentBytes base len) := if_pos h

theorem extent_error {s : State} {base len : BitVec 12} (h : ¬s.extentOk base len) :
    extent s base len = .error .eRange := if_neg h

theorem extentBytes_length (s : State) (base len : BitVec 12) : (s.extentBytes base len).length = len.toNat :=
  readSeq_length _ _ _ _

/-- All a validator can do (45 R213): fail on the bounds, fail on the check, or respond the check's value. It never
changes the unit. -/
theorem checkExtent_cases (s : State) (base len : BitVec 12) (check : List Byte → Except FailCode Word) :
    (¬s.extentOk base len ∧ checkExtent s base len check = .next (s.emit (.fail .eRange))) ∨
      (s.extentOk base len ∧ ∃ e, check (s.extentBytes base len) = .error e ∧
        checkExtent s base len check = .next (s.emit (.fail e))) ∨
      (s.extentOk base len ∧ ∃ v, check (s.extentBytes base len) = .ok v ∧
        checkExtent s base len check = .next (s.emit (.ok v))) := by
  by_cases h : s.extentOk base len
  · cases hc : check (s.extentBytes base len) with
    | error e => exact .inr (.inl ⟨h, e, rfl, by simp [checkExtent, extent_ok h, hc, fail_eq]⟩)
    | ok v => exact .inr (.inr ⟨h, v, rfl, by simp [checkExtent, extent_ok h, hc, respond_eq]⟩)
  · exact .inl ⟨h, by simp [checkExtent, extent_error h, fail_eq]⟩

/-- All a sequencer can do (43 R170, 45 R208): fail on the bounds, fail on the scan, or replace the value buffer. -/
theorem sequenceExtent_cases (s : State) (base len : BitVec 12) (seq : List Byte → Except FailCode (List Byte)) :
    (¬s.extentOk base len ∧ sequenceExtent s base len seq = .next (s.emit (.fail .eRange))) ∨
      (s.extentOk base len ∧ ∃ e, seq (s.extentBytes base len) = .error e ∧
        sequenceExtent s base len seq = .next (s.emit (.fail e))) ∨
      (s.extentOk base len ∧ ∃ out, seq (s.extentBytes base len) = .ok out ∧
        sequenceExtent s base len seq = .next ((s.setValues out).emit (.ok (natWord out.length)))) := by
  by_cases h : s.extentOk base len
  · cases hc : seq (s.extentBytes base len) with
    | error e => exact .inr (.inl ⟨h, e, rfl, by simp [sequenceExtent, extent_ok h, hc, fail_eq]⟩)
    | ok out => exact .inr (.inr ⟨h, out, rfl, by simp [sequenceExtent, extent_ok h, hc, respond_eq]⟩)
  · exact .inl ⟨h, by simp [sequenceExtent, extent_error h, fail_eq]⟩

/-- All a checksum can do (43 R176, 44 R187, 45 R210): fail on an empty buffer, fail on a value, or respond the sum. -/
theorem checksumValues_cases (s : State) (top : Nat) (sum : List Nat → Nat) :
    (s.vlen = 0 ∧ checksumValues s top sum = .next (s.emit (.fail .eShape))) ∨
      (s.vlen ≠ 0 ∧ (∃ v ∈ s.values, top < v.toNat) ∧ checksumValues s top sum = .next (s.emit (.fail .eChar))) ∨
      (s.vlen ≠ 0 ∧ (∀ v ∈ s.values, v.toNat ≤ top) ∧
        checksumValues s top sum = .next (s.emit (.ok (natWord (sum (s.values.map BitVec.toNat)))))) := by
  by_cases h0 : s.vlen = 0
  · exact .inl ⟨h0, by simp [checksumValues, h0, fail_eq]⟩
  · by_cases hb : ∃ v ∈ s.values, top < v.toNat
    · have : s.values.any (fun v => decide (top < v.toNat)) = true := by simpa using hb
      exact .inr (.inl ⟨h0, hb, by rw [checksumValues, if_neg h0, if_pos this, fail_eq]⟩)
    · refine .inr (.inr ⟨h0, fun v hv => Nat.le_of_not_lt fun hlt => hb ⟨v, hv, hlt⟩, ?_⟩)
      have : s.values.any (fun v => decide (top < v.toNat)) = false := by
        rw [List.any_eq_false]
        exact fun v hv => by simpa using fun hlt => hb ⟨v, hv, hlt⟩
      rw [checksumValues, if_neg h0, if_neg (by simp [this]), respond_eq]

/-- What the digit check accepts and refuses (45 R215 to R220). -/
theorem checkDigits_cases (shape : Nat → Bool) (bytes : List Byte) :
    (shape bytes.length = false ∧ checkDigits shape bytes = .error .eShape) ∨
      (shape bytes.length = true ∧ bytes.all isDigit = false ∧ checkDigits shape bytes = .error .eChar) ∨
      (shape bytes.length = true ∧ bytes.all isDigit = true ∧ checkDigits shape bytes = .ok ()) := by
  cases h : shape bytes.length
  · exact .inl ⟨rfl, by simp [checkDigits, h]⟩
  · cases hd : bytes.all isDigit
    · exact .inr (.inl ⟨rfl, rfl, by simp only [checkDigits, h, hd]; rfl⟩)
    · exact .inr (.inr ⟨rfl, rfl, by simp only [checkDigits, h, hd]; rfl⟩)

/-! ## Contents through the named state changes -/

theorem values_length (s : State) : s.values.length = s.vlen.toNat := readSeq_length _ _ _ _

theorem generator_length (s : State) : s.generator.length = s.rsN.toNat + 1 := readSeq_length _ _ _ _

theorem remainder_length (s : State) : s.remainder.length = s.rsN.toNat := readSeq_length _ _ _ _

/-- Appending to the data buffer: the new byte at the old fill pointer, every other index as before (10 R27). -/
theorem pushData_dataAt (s : State) (b : Byte) (i : Nat) (h : Memory.wf blankByte s.dbuf) :
    (s.pushData b).dataAt i = if i = s.dlen.toNat then b else s.dataAt i :=
  readMem_writeMem _ _ _ _ _ h

/-- Appending to the value buffer (10 R28). -/
theorem pushValue_valueAt (s : State) (b : Byte) (i : Nat) (h : Memory.wf blankByte s.vbuf) :
    (s.pushValue b).valueAt i = if i = s.vlen.toNat then b else s.valueAt i :=
  readMem_writeMem _ _ _ _ _ h

/-- Replacing the value buffer's contents: from index 0, every index above as before (10 R28). -/
theorem setValues_valueAt (s : State) (out : List Byte) (i : Nat) (h : Memory.wf blankByte s.vbuf) :
    (s.setValues out).valueAt i = if i < out.length then out.getD i blankByte else s.valueAt i := by
  simpa [State.valueAt] using readMem_writeSeq blankByte out s.vbuf 0 i h

theorem setValues_values (s : State) (out : List Byte) (h : Memory.wf blankByte s.vbuf) (hl : out.length < 2 ^ 13) :
    (s.setValues out).values = out := by
  have : (s.setValues out).vlen.toNat = out.length := by
    rw [State.setValues_vlen, BitVec.toNat_ofNat, Nat.mod_eq_of_lt hl]
  rw [State.values, this]
  exact readSeq_writeSeq _ _ _ _ h

/-- Writing the remainder: from index 0, every index above as before (10 R31). -/
theorem setRemainder_remAt (s : State) (rem : List Byte) (i : Nat) (h : Memory.wf blankByte s.rsRem) :
    (s.setRemainder rem).remAt i = if i < rem.length then rem.getD i blankByte else s.remAt i := by
  simpa [State.remAt] using readMem_writeSeq blankByte rem s.rsRem 0 i h

theorem setRemainder_remainder (s : State) (rem : List Byte) (h : Memory.wf blankByte s.rsRem)
    (hl : rem.length = s.rsN.toNat) : (s.setRemainder rem).remainder = rem := by
  rw [State.remainder, State.setRemainder_rsN, ← hl]
  exact readSeq_writeSeq _ _ _ _ h

/-- Setting a generator up: its coefficients from index 0, every index above as before (41 R132). -/
theorem setGenerator_genAt (s : State) (n : BitVec 8) (g : List Byte) (i : Nat) (h : Memory.wf blankByte s.rsGen) :
    (s.setGenerator n g).genAt i = if i < g.length then g.getD i blankByte else s.genAt i := by
  simpa [State.genAt] using readMem_writeSeq blankByte g s.rsGen 0 i h

theorem setGenerator_generator (s : State) (n : BitVec 8) (g : List Byte) (h : Memory.wf blankByte s.rsGen)
    (hl : g.length = n.toNat + 1) : (s.setGenerator n g).generator = g := by
  rw [State.generator, State.setGenerator_rsN, ← hl]
  exact readSeq_writeSeq _ _ _ _ h

/-- Two cells of the matrix memory have different keys (log 15). -/
theorem cellKey_inj {r c r' c' : Nat} (hc : c < matMax) (hc' : c' < matMax) (h : cellKey r c = cellKey r' c') :
    r = r' ∧ c = c' := by
  simp only [cellKey, matMax] at *
  omega

theorem cellKey_div {r c : Nat} (hc : c < matMax) : cellKey r c / matMax = r := by
  simp only [cellKey, matMax] at *
  omega

theorem cellKey_mod {r c : Nat} (hc : c < matMax) : cellKey r c % matMax = c := by
  simp only [cellKey, matMax] at *
  omega

theorem sideOf_le {v : BitVec 6} (h : v.toNat ≤ 40) : sideOf v ≤ matMax := by
  unfold sideOf matMax
  split <;> omega

/-- Writing one cell: that cell, every other cell as before (46 R232). -/
theorem writeCell_cell (s : State) (r c : Nat) (x : MatCell) (r' c' : Nat) (h : Memory.wf blankCell s.mat)
    (hc : c < matMax) (hc' : c' < matMax) :
    (s.writeCell r c x).cell r' c' = if r' = r ∧ c' = c then x else s.cell r' c' := by
  simp only [State.cell, State.writeCell_mat, readMem_writeMem _ _ _ _ _ h]
  by_cases hk : cellKey r' c' = cellKey r c
  · rw [if_pos hk, if_pos (cellKey_inj hc' hc hk)]
  · rw [if_neg hk, if_neg]
    rintro ⟨rfl, rfl⟩
    exact hk rfl

/-- `MAT.INIT`: a cell of the new square is blank, every other cell of the memory is as before (46 R231). -/
theorem initMatrix_cell (s : State) (v : BitVec 6) (r c : Nat) (h : Memory.wf blankCell s.mat) (hc : c < matMax) :
    (s.initMatrix v).cell r c = if r < sideOf v ∧ c < sideOf v then blankCell else s.cell r c := by
  have := readMem_filter blankCell (fun k => decide ¬(k / matMax < sideOf v ∧ k % matMax < sideOf v)) s.mat
    (cellKey r c) h.1
  simp only [cellKey_div hc, cellKey_mod hc] at this
  simp only [State.cell, State.initMatrix_mat, clearSquare]
  rw [this]
  by_cases hin : r < sideOf v ∧ c < sideOf v
  · simp [hin]
  · simp only [hin, not_false_eq_true, decide_true, if_true, if_false]

/-- A mask over the square: a cell that the mask inverts has the other colour, every other cell of the memory is as
before, if no cell that it inverts is blank (46 R238). -/
theorem maskSquare_cell (s : State) (pred : Nat → Nat → Bool) (n r c : Nat) (hc : c < matMax)
    (hset : r < n → c < n → (s.cell r c).rsv = false → (s.cell r c).st ≠ .unset) :
    (s.setMatrix (maskSquare pred n s.mat)).cell r c =
      if r < n && c < n && masked pred r c (s.cell r c) then flipCell (s.cell r c) else s.cell r c := by
  have := readMem_map blankCell
    (fun k x => if k / matMax < n && k % matMax < n && masked pred (k / matMax) (k % matMax) x then flipCell x else x)
    s.mat (cellKey r c) (fun hb => by
      rw [cellKey_div hc, cellKey_mod hc, if_neg]
      intro hm
      simp only [Bool.and_eq_true, decide_eq_true_eq] at hm
      have hcell : s.cell r c = blankCell := hb
      exact hset hm.1.1 hm.1.2 (by rw [hcell]; rfl) (by rw [hcell]; rfl))
  simp only [cellKey_div hc, cellKey_mod hc] at this
  exact this

/-! ## One step -/

theorem step_idle (s : State) (h : s.inputs = []) : step s = .next s := by
  simp [step, takeInput, h]

theorem step_hardReset (s : State) (w : Option Word) (rest : List HostInput) (h : s.inputs = .hardReset w :: rest) :
    step s = .next (s.withInputs rest).hardReset := by
  simp [step, takeInput, h]

theorem acceptWord_ok {w : Word} {i : Instr} (s : State) (h : decode w = .ok i) : acceptWord w s = exec i s := by
  simp [acceptWord, h]

theorem acceptWord_error {w : Word} {e : FailCode} (s : State) (h : decode w = .error e) :
    acceptWord w s = .next (s.emit (.fail e)) := by
  simp [acceptWord, h, fail_eq]

end Sys2Proof.Machine
end

