-- ==== Sys2Proof/Tests/Slice0.lean ====
section
/-! SUPPORT. The model's own tests. Expected values are the spec's: the words from its encoding (30 R85 to R87), the
responses from its test vectors (95, section given) and from the examples in the command rules. Then the witnesses: for
each statement with hypotheses, concrete states and operands that meet them, at the ends of their ranges. -/

namespace Sys2Proof.Tests

set_option Elab.async false

open Sys2Proof.Machine Sys2Proof.Claims

/-! ## Helpers -/

/-- The state a command leaves, if it goes on. -/
def after (i : Instr) (s : State) : Option State :=
  match exec i s with
  | .next t => some t
  | .fault _ => none
  | .refused _ => none

/-- The state a step leaves, if it goes on. -/
def stepped (s : State) : Option State :=
  match step s with
  | .next t => some t
  | .fault _ => none
  | .refused _ => none

/-- The response of a command. -/
def resp (i : Instr) (s : State) : Option Response := (after i s).bind fun t => t.responses.head?

/-- `OK(v)`. -/
def ok (v : Nat) : Option Response := some (.ok (natWord v))

/-- `FAIL(c)`. -/
def ko (c : FailCode) : Option Response := some (.fail c)

/-- Bytes from their codes. -/
def bytes (bs : List Nat) : List Byte := bs.map (BitVec.ofNat 8)

/-- Reset with these bytes in the data buffer. -/
def withData (bs : List Nat) : State :=
  { State.reset with dbuf := writeSeq blankByte [] 0 (bytes bs), dlen := BitVec.ofNat 13 bs.length }

/-- Reset with these values in the value buffer. -/
def withValues (bs : List Nat) : State :=
  { State.reset with vbuf := writeSeq blankByte [] 0 (bytes bs), vlen := BitVec.ofNat 13 bs.length }

/-- Reset with a generator, a remainder and some data. -/
def withGen (n : Nat) (gen rem data : List Nat) : State :=
  { withData data with
    rsN := BitVec.ofNat 8 n
    rsGen := writeSeq blankByte [] 0 (bytes gen)
    rsRem := writeSeq blankByte [] 0 (bytes rem) }

/-- Reset with a version-1 matrix, the cells as `MAT.WR` writes them. -/
def withMatrix (z : Nat → Nat → Nat) : State :=
  { State.reset with matVer := 1, mat := (coords 21).map fun p => (cellKey p.1 p.2, cellOfBits (BitVec.ofNat 2 (z p.1 p.2))) }

/-- Every cell light and unreserved: `MAT.INIT 1`, `MAT.FILL 0`. -/
def lightMatrix : State := withMatrix fun _ _ => 0

/-- The light matrix with its score of 46 R247. -/
def scoredMatrix : State :=
  { lightMatrix with penA := 798, penB := 1200, penC := 0, penD := 90, penTotal := 2088, penValid := true }

/-- The generator of degree 7 (41 R133). -/
def gen7 : List Nat := [0x01, 0x7F, 0x7A, 0x9A, 0xA4, 0x0B, 0x44, 0x75]

/-- A state with pending inputs. -/
def pending (ws : List Word) : State := { State.reset with inputs := ws.map .command }

/-- The checks of `State.Inv` as one decidable conjunction. -/
abbrev invChecks (s : State) : Prop :=
  s.romOk ∧ Memory.wf blankByte s.dbuf ∧ Memory.within dbufSize s.dbuf ∧ s.dlen.toNat ≤ dbufSize ∧
    Memory.wf blankByte s.vbuf ∧ Memory.within vbufSize s.vbuf ∧ s.vlen.toNat ≤ vbufSize ∧
    s.rsN.toNat ≤ unitConfig.rsNMax ∧ Memory.wf blankByte s.rsGen ∧ Memory.within (unitConfig.rsNMax + 1) s.rsGen ∧
    Memory.wf blankByte s.rsRem ∧ Memory.within unitConfig.rsNMax s.rsRem ∧ s.matVer.toNat ≤ 40 ∧
    Memory.wf blankCell s.mat ∧ Memory.within (matMax * matMax) s.mat ∧ ∀ x ∈ s.mat, x.2.st ≠ .unset

theorem inv_of_checks {s : State} (h : invChecks s) : s.Inv :=
  let ⟨h1, h2, h3, h4, h5, h6, h7, h8, h9, h10, h11, h12, h13, h14, h15, h16⟩ := h
  ⟨h1, h2, h3, h4, h5, h6, h7, h8, h9, h10, h11, h12, h13, h14, h15, h16⟩

theorem witness_inv_reset : State.reset.Inv := inv_of_checks (by decide +kernel)

/-! ## Well-formedness: one ill-formed term for each check of 30 R89 -/

theorem test_wf_csrRd : (Instr.csrRd 14).wellFormed unitConfig = false ∧ (Instr.csrRd 13).wellFormed unitConfig = true := by
  decide

theorem test_wf_gfExp : (Instr.gfExp 255).wellFormed unitConfig = false ∧ (Instr.gfExp 254).wellFormed unitConfig = true := by
  decide

theorem test_wf_gfLog : (Instr.gfLog 0).wellFormed unitConfig = false ∧ (Instr.gfLog 1).wellFormed unitConfig = true := by
  decide

theorem test_wf_rsGen : (Instr.rsGen 0).wellFormed unitConfig = false ∧ (Instr.rsGen 31).wellFormed unitConfig = false ∧
    (Instr.rsGen 1).wellFormed unitConfig = true ∧ (Instr.rsGen 30).wellFormed unitConfig = true := by
  decide

theorem test_wf_bchVer : (Instr.bchVer 6).wellFormed unitConfig = false ∧ (Instr.bchVer 41).wellFormed unitConfig = false ∧
    (Instr.bchVer 7).wellFormed unitConfig = true ∧ (Instr.bchVer 40).wellFormed unitConfig = true := by
  decide

theorem test_wf_parEan13 : (Instr.parEan13 10).wellFormed unitConfig = false ∧
    (Instr.parEan13 9).wellFormed unitConfig = true := by
  decide

theorem test_wf_parUpce : (Instr.parUpce 10).wellFormed unitConfig = false ∧
    (Instr.parUpce 9).wellFormed unitConfig = true := by
  decide

theorem test_wf_matInit : (Instr.matInit 0).wellFormed unitConfig = false ∧ (Instr.matInit 41).wellFormed unitConfig = false ∧
    (Instr.matInit 1).wellFormed unitConfig = true ∧ (Instr.matInit 40).wellFormed unitConfig = true := by
  decide

/-! ## Decoding: every command's word, field by field from 30 R85, R86, R87 -/

theorem test_decode_control :
    decode (0x00#8 ++ 0#24) = .ok .nop ∧ decode (0x01#8 ++ 0#24) = .ok .srst ∧
    decode (0x02#8 ++ 0#12 ++ 0xA5C#12) = .ok (.csrRd 0xA5C) := by
  decide

theorem test_decode_buffers :
    decode (0x10#8 ++ 0#24) = .ok .dClr ∧ decode (0x11#8 ++ 0#16 ++ 0x7B#8) = .ok (.dPush 0x7B) ∧
    decode (0x12#8 ++ 0#12 ++ 0xA5C#12) = .ok (.dRd 0xA5C) ∧ decode (0x14#8 ++ 0#24) = .ok .vClr ∧
    decode (0x15#8 ++ 0#16 ++ 0x3C#8) = .ok (.vPush 0x3C) ∧ decode (0x16#8 ++ 0#12 ++ 0x5A3#12) = .ok (.vRd 0x5A3) := by
  decide

theorem test_decode_gf :
    decode (0x20#8 ++ 0#8 ++ 0x57#8 ++ 0x1D#8) = .ok (.gfMul 0x57 0x1D) ∧
    decode (0x21#8 ++ 0#16 ++ 0xFE#8) = .ok (.gfExp 0xFE) ∧ decode (0x22#8 ++ 0#16 ++ 0x8E#8) = .ok (.gfLog 0x8E) := by
  decide

theorem test_decode_rs :
    decode (0x28#8 ++ 0#16 ++ 10#8) = .ok (.rsGen 10) ∧ decode (0x29#8 ++ 0#24) = .ok .rsClr ∧
    decode (0x2A#8 ++ 0#16 ++ 0xC3#8) = .ok (.rsFeed 0xC3) ∧ decode (0x2B#8 ++ 3#12 ++ 5#12) = .ok (.rsEnc 3 5) ∧
    decode (0x2C#8 ++ 0#12 ++ 9#12) = .ok (.rsRd 9) ∧ decode (0x2D#8 ++ 0#12 ++ 11#12) = .ok (.rsGrd 11) := by
  decide

theorem test_decode_bch :
    decode (0x30#8 ++ 0#16 ++ 0#3 ++ 0b10110#5) = .ok (.bchFmt 0b10110) ∧
    decode (0x31#8 ++ 0#16 ++ 0#2 ++ 0b101001#6) = .ok (.bchVer 0b101001) := by
  decide

theorem test_decode_barcodes :
    decode (0x40#8 ++ 1#12 ++ 9#12) = .ok (.c128Seq 1 9) ∧ decode (0x41#8 ++ 0#24) = .ok .c128Chk ∧
    decode (0x42#8 ++ 0#24) = .ok .m10Chk ∧ decode (0x43#8 ++ 0x123#12 ++ 6#12) = .ok (.upceExp 0x123 6) ∧
    decode (0x44#8 ++ 0#24) = .ok .c93Chk ∧ decode (0x45#8 ++ 0#16 ++ 0#4 ++ 9#4) = .ok (.parEan13 9) ∧
    decode (0x46#8 ++ 0#16 ++ 0#4 ++ 12#4) = .ok (.parUpce 12) ∧
    decode (0x47#8 ++ 0xFED#12 ++ 0xCBA#12) = .ok (.c93Seq 0xFED 0xCBA) := by
  decide

theorem test_decode_validators :
    decode (0x48#8 ++ 1#12 ++ 2#12) = .ok (.valC128 1 2) ∧ decode (0x49#8 ++ 0#12 ++ 13#12) = .ok (.valEan13 0 13) ∧
    decode (0x4A#8 ++ 0#12 ++ 8#12) = .ok (.valEan8 0 8) ∧ decode (0x4B#8 ++ 0#12 ++ 12#12) = .ok (.valUpca 0 12) ∧
    decode (0x4C#8 ++ 5#12 ++ 7#12) = .ok (.valUpce 5 7) ∧ decode (0x4D#8 ++ 1#12 ++ 0#12) = .ok (.valC39 1 0) ∧
    decode (0x4E#8 ++ 4#12 ++ 2#12) = .ok (.valItf 4 2) ∧ decode (0x4F#8 ++ 6#12 ++ 1#12) = .ok (.valCbar 6 1) ∧
    decode (0x50#8 ++ 4095#12 ++ 4095#12) = .ok (.valC93 4095 4095) := by
  decide

theorem test_decode_matrix :
    decode (0x60#8 ++ 0#16 ++ 0#2 ++ 40#6) = .ok (.matInit 40) ∧
    decode (0x61#8 ++ 6#8 ++ 8#8 ++ 0#6 ++ 0b10#2) = .ok (.matWr 6 8 2) ∧
    decode (0x62#8 ++ 0#8 ++ 13#8 ++ 8#8) = .ok (.matRd 13 8) ∧
    decode (0x63#8 ++ 0#5 ++ 5#3 ++ 3#8 ++ 4#8) = .ok (.maskBit 5 3 4) ∧
    decode (0x64#8 ++ 0#16 ++ 0#5 ++ 6#3) = .ok (.maskApply 6) ∧ decode (0x65#8 ++ 0#24) = .ok .penScore ∧
    decode (0x66#8 ++ 0#24) = .ok .bestClr ∧ decode (0x67#8 ++ 0#16 ++ 0#5 ++ 7#3) = .ok (.bestUpd 7) := by
  decide

/-- 95 section 2.2: illegal opcode bytes and must-be-zero bits. -/
theorem test_decode_illegal :
    decode 0x03000000 = .error .eOpcode ∧ decode 0x13000000 = .error .eOpcode ∧ decode 0x68000000 = .error .eOpcode ∧
    decode 0xFFFFFFFF = .error .eOpcode ∧ decode 0x00000001 = .error .eField ∧ decode 0x01800000 = .error .eField ∧
    decode 0x11000141 = .error .eField ∧ decode 0x20010203 = .error .eField ∧ decode 0x30000020 = .error .eField ∧
    decode 0x61000004 = .error .eField ∧ decode 0x63080000 = .error .eField ∧ decode 0x45000010 = .error .eField := by
  decide

/-- 95 section 2.1, from commands to words. -/
theorem test_encode :
    encode .nop = 0x00000000 ∧ encode (.csrRd 13) = 0x0200000D ∧ encode (.rsEnc 3 5) = 0x2B003005 ∧
    encode (.valC93 4095 4095) = 0x50FFFFFF ∧ encode (.matWr 6 8 3) = 0x61060803 ∧ encode (.bestUpd 7) = 0x67000007 := by
  decide

theorem test_decodeTableWord :
    decodeTableWord 32 0x61060803 = some (.matWr 6 8 3) ∧ decodeTableWord 32 0x03000000 = none := by
  decide

/-- 30 R94, R95: `MAT.WR 6, 8, 3 # cell` and `D.LOAD "AB"`. -/
theorem test_assembler :
    assembleLine 0 ['M', 'A', 'T', '.', 'W', 'R', ' ', '6', ',', ' ', '0', 'x', '8', ',', ' ', '0', 'b', '1', '1', ' ', '#', 'c'] =
        some [.matWr 6 8 3] ∧
      assembleLine 0 ['D', '.', 'L', 'O', 'A', 'D', ' ', '"', 'A', 'B', '"'] = some [.dClr, .dPush 65, .dPush 66] := by
  decide +kernel

/-! ## ROM (10 R24, R25; 40 R111, R112, R119) -/

/-- `XTIME` takes each entry of `EXP` to the next, and `EXP[254]` to 1. -/
theorem test_rom_doubling :
    expAt expTable 0 = 1 ∧ (∀ i, i < 254 → expAt expTable (i + 1) = xtime (expAt expTable i)) ∧
      xtime (expAt expTable 254) = 1 := by
  decide +kernel

theorem test_rom_inverse : ∀ i, i < 255 → (logAt logTable (expAt expTable i)).toNat = i := by
  decide +kernel

/-! ## Control and buffers (95 sections 10 and 11) -/

theorem test_nop : after .nop State.reset = some { State.reset with responses := [.ok 0] } := by decide +kernel

theorem test_srst : after .srst { withData [0x41] with matVer := 7, bestValid := true } =
    some { withData [0x41] with dlen := 0, responses := [.ok 0] } := by
  decide +kernel

theorem test_csrRd : resp (.csrRd 4) { State.reset with matVer := 40 } = ok 177 ∧
    resp (.csrRd 12) { State.reset with rsN := 1, penValid := true } = ok 5 ∧
    resp (.csrRd 13) State.reset = ok 0x011D0100 := by
  decide +kernel

theorem test_csrRd_fails : resp (.csrRd 9) State.reset = ko .eState ∧ resp (.csrRd 11) State.reset = ko .eState ∧
    resp (.csrRd 14) State.reset = ko .eArg := by
  decide +kernel

theorem test_dClr : (after .dClr (withData [65, 66])).map (fun t => (t.dlen, t.dbuf)) =
    some (0, [(0, 65), (1, 66)]) := by
  decide +kernel

theorem test_dPush : (after (.dPush 0x7B) (withData [65])).map (fun t => (t.dlen, t.dbuf)) =
    some (2, [(0, 65), (1, 0x7B)]) := by
  decide +kernel

theorem test_dPush_full : resp (.dPush 1) { State.reset with dlen := 4096 } = ko .eFull ∧
    resp (.dPush 1) { State.reset with dlen := 4095 } = ok 4096 := by
  decide +kernel

theorem test_dRd : resp (.dRd 1) (withData [65, 66]) = ok 66 ∧ resp (.dRd 2) (withData [65, 66]) = ko .eRange := by
  decide +kernel

theorem test_vClr : (after .vClr (withValues [9])).map (fun t => (t.vlen, t.vbuf)) = some (0, [(0, 9)]) := by
  decide +kernel

theorem test_vPush : (after (.vPush 255) (withValues [104])).map (fun t => (t.vlen, t.vbuf)) =
    some (2, [(0, 104), (1, 255)]) := by
  decide +kernel

theorem test_vPush_full : resp (.vPush 1) { State.reset with vlen := 4096 } = ko .eFull := by decide +kernel

theorem test_vRd : resp (.vRd 0) (withValues [104]) = ok 104 ∧ resp (.vRd 0) State.reset = ko .eRange := by decide +kernel

/-! ## GF(256) (95 section 3) -/

theorem test_gfMul : resp (.gfMul 0 0xFF) State.reset = ok 0 ∧ resp (.gfMul 2 0x8E) State.reset = ok 1 ∧
    resp (.gfMul 0x57 0x1D) State.reset = ok 0x8D ∧ resp (.gfMul 0xFF 0xFF) State.reset = ok 0xE2 := by
  decide +kernel

theorem test_gfExp : resp (.gfExp 25) State.reset = ok 3 ∧ resp (.gfExp 254) State.reset = ok 0x8E ∧
    resp (.gfExp 255) State.reset = ko .eArg := by
  decide +kernel

theorem test_gfLog : resp (.gfLog 3) State.reset = ok 25 ∧ resp (.gfLog 0xFF) State.reset = ok 175 ∧
    resp (.gfLog 0) State.reset = ko .eArg := by
  decide +kernel

/-! ## Reed-Solomon (95 section 4) -/

/-- The coefficients read back after `RS.GEN 10`. -/
theorem test_rsGen : (after (.rsGen 10) State.reset).map (fun t => (t.rsN, t.generator)) =
    some (10, bytes [0x01, 0xD8, 0xC2, 0x9F, 0x6F, 0xC7, 0x5E, 0x5F, 0x71, 0x9D, 0xC1]) := by
  decide +kernel

theorem test_rsGen_fails : resp (.rsGen 0) State.reset = ko .eArg ∧ resp (.rsGen 31) State.reset = ko .eArg ∧
    resp (.rsGen 30) State.reset = ok 30 := by
  decide +kernel

theorem test_rsClr : (after .rsClr (withGen 2 [1, 3, 2] [0x36, 0x24] [])).map State.remainder = some (bytes [0, 0]) ∧
    resp .rsClr State.reset = ko .eState := by
  decide +kernel

/-- `RS.GEN 2`, data `12 34`: the second feed. -/
theorem test_rsFeed : (after (.rsFeed 0x34) (withGen 2 [1, 3, 2] [0x36, 0x24] [])).map State.remainder =
    some (bytes [0x22, 0x04]) := by
  decide +kernel

theorem test_rsEnc : (after (.rsEnc 1 3) (withGen 7 gen7 [9, 9] [0, 0x41, 0x42, 0x43])).map
    (fun t => (t.remainder, t.responses)) = some (bytes [0x1F, 0x03, 0xE5, 0x42, 0xB3, 0x6A, 0x22], [.ok 7]) := by
  decide +kernel

/-- 95 section 11: state before range. -/
theorem test_rsEnc_fails : resp (.rsEnc 0 5) State.reset = ko .eState ∧
    resp (.rsEnc 0 5) (withGen 2 [1, 3, 2] [] []) = ko .eRange := by
  decide +kernel

theorem test_rsRd : resp (.rsRd 1) (withGen 2 [1, 3, 2] [0x36, 0x24] []) = ok 0x24 ∧
    resp (.rsRd 2) (withGen 2 [1, 3, 2] [0x36, 0x24] []) = ko .eRange ∧ resp (.rsRd 0) State.reset = ko .eState := by
  decide +kernel

theorem test_rsGrd : resp (.rsGrd 2) (withGen 2 [1, 3, 2] [] []) = ok 2 ∧
    resp (.rsGrd 3) (withGen 2 [1, 3, 2] [] []) = ko .eRange ∧ resp (.rsGrd 0) State.reset = ko .eState := by
  decide +kernel

/-! ## BCH (95 section 5) -/

theorem test_bchFmt : resp (.bchFmt 0) State.reset = ok 0x5412 ∧ resp (.bchFmt 5) State.reset = ok 0x40CE ∧
    resp (.bchFmt 31) State.reset = ok 0x2BED := by
  decide +kernel

theorem test_bchVer : resp (.bchVer 7) State.reset = ok 0x07C94 ∧ resp (.bchVer 40) State.reset = ok 0x28C69 ∧
    resp (.bchVer 6) State.reset = ko .eArg ∧ resp (.bchVer 41) State.reset = ko .eArg := by
  decide +kernel

/-! ## Code128 (95 sections 6 and 11) -/

/-- An escape to set C, two digits, an escape to set B, one digit; and a selector with nothing after it. -/
theorem test_c128Seq :
    (after (.c128Seq 0 8) (withData [123, 67, 49, 50, 123, 66, 51, 65])).map State.values = some (bytes [105, 12, 100, 19, 33]) ∧
      (after (.c128Seq 0 2) (withData [123, 67])).map State.values = some (bytes [105]) := by
  decide +kernel

theorem test_c128Seq_fails : resp (.c128Seq 0 5) (withData [123, 66, 123, 88, 255]) = ko .eEsc ∧
    resp (.c128Seq 0 3) (withData [255, 123, 88]) = ko .eChar ∧ resp (.c128Seq 0 0) State.reset = ko .eShape ∧
    resp (.c128Seq 0 10) State.reset = ko .eRange := by
  decide +kernel

theorem test_c128Chk : resp .c128Chk (withValues [104, 17, 18, 19, 20, 21, 22, 23, 24]) = ok 60 ∧
    resp .c128Chk (withValues [105, 12, 34, 56, 78]) = ok 47 := by
  decide +kernel

theorem test_c128Chk_fails : resp .c128Chk State.reset = ko .eShape ∧ resp .c128Chk (withValues [104, 106]) = ko .eChar := by
  decide +kernel

/-! ## UPC/EAN (95 section 7; 44 R193) -/

theorem test_m10Chk : resp .m10Chk (withValues [4, 0, 0, 6, 3, 8, 1, 3, 3, 3, 9, 3]) = ok 1 ∧
    resp .m10Chk (withValues [9, 6, 3, 8, 5, 0, 7]) = ok 4 ∧ resp .m10Chk (withValues [0]) = ok 0 := by
  decide +kernel

theorem test_m10Chk_fails : resp .m10Chk (withValues [5, 10]) = ko .eChar ∧ resp .m10Chk State.reset = ko .eShape := by
  decide +kernel

theorem test_upceExp : (after (.upceExp 0 6) (withData [52, 50, 53, 50, 54, 49])).map (fun t => (t.values, t.responses)) =
    some (bytes [0, 4, 2, 1, 0, 0, 0, 0, 5, 2, 6, 4], [.ok 4]) := by
  decide +kernel

/-- Seven digits with number system 1; eight with a supplied check digit; number system 2. -/
theorem test_upceExp_forms : (after (.upceExp 0 7) (withData [49, 49, 50, 51, 52, 53, 57])).map State.values =
      some (bytes [1, 1, 2, 3, 4, 5, 0, 0, 0, 0, 9, 3]) ∧
    resp (.upceExp 0 8) (withData [48, 52, 50, 53, 50, 54, 49, 57]) = ok 9 ∧
    resp (.upceExp 0 7) (withData [50, 49, 50, 51, 52, 53, 54]) = ko .eChar := by
  decide +kernel

theorem test_parEan13 : resp (.parEan13 1) State.reset = ok 0x0B ∧ resp (.parEan13 9) State.reset = ok 0x1A ∧
    resp (.parEan13 10) State.reset = ko .eArg := by
  decide +kernel

theorem test_parUpce : resp (.parUpce 0) State.reset = ok 0x38 ∧ resp (.parUpce 4) State.reset = ok 0x2C ∧
    resp (.parUpce 15) State.reset = ko .eArg := by
  decide +kernel

/-! ## Code93 and validators (95 section 8) -/

/-- `test` in small letters gives the values of `TEST`. -/
theorem test_c93Seq : (after (.c93Seq 0 4) (withData [116, 101, 115, 116])).map State.values =
    some (bytes [29, 14, 28, 29]) := by
  decide +kernel

theorem test_c93Seq_fails : resp (.c93Seq 0 4) (withData [84, 69, 42, 84]) = ko .eChar ∧
    resp (.c93Seq 0 0) (withData [84]) = ko .eShape ∧ resp (.c93Seq 1 1) (withData [84]) = ko .eRange := by
  decide +kernel

theorem test_c93Chk : resp .c93Chk (withValues [29, 14, 28, 29]) = ok 0x1608 ∧
    resp .c93Chk (withValues (List.replicate 21 35)) = ok 0x1C06 := by
  decide +kernel

theorem test_c93Chk_fails : resp .c93Chk (withValues [47]) = ko .eChar ∧ resp .c93Chk State.reset = ko .eShape := by
  decide +kernel

theorem test_valC128 : resp (.valC128 0 2) (withData [123, 66]) = ok 1 ∧ resp (.valC128 0 2) (withData [123, 88]) = ko .eEsc ∧
    resp (.valC128 0 5) (withData [123, 67, 49, 50, 51]) = ko .eChar := by
  decide +kernel

theorem test_valEan13 : resp (.valEan13 0 13) (withData [52, 48, 48, 54, 51, 56, 49, 51, 51, 51, 57, 51, 48]) = ok 0 ∧
    resp (.valEan13 0 12) (withData [52, 48, 48, 54, 51, 56, 49, 51, 51, 51, 57, 51]) = ko .eShape ∧
    resp (.valEan13 0 13) (withData [52, 48, 48, 54, 51, 56, 49, 51, 51, 51, 57, 51, 88]) = ko .eChar := by
  decide +kernel

theorem test_valEan8 : resp (.valEan8 0 8) (withData [57, 54, 51, 56, 53, 48, 55, 52]) = ok 0 ∧
    resp (.valEan8 0 7) (withData [57, 54, 51, 56, 53, 48, 55]) = ko .eShape := by
  decide +kernel

theorem test_valUpca : resp (.valUpca 0 12) (withData [48, 52, 50, 49, 48, 48, 48, 48, 53, 50, 54, 52]) = ok 0 ∧
    resp (.valUpca 0 11) (withData [48, 52, 50, 49, 48, 48, 48, 48, 53, 50, 54]) = ko .eShape := by
  decide +kernel

theorem test_valUpce : resp (.valUpce 0 6) (withData [52, 50, 53, 50, 54, 49]) = ok 1 ∧
    resp (.valUpce 0 7) (withData [50, 49, 50, 51, 52, 53, 54]) = ko .eChar ∧
    resp (.valUpce 0 5) (withData [49, 50, 51, 52, 53]) = ko .eShape := by
  decide +kernel

/-- An empty extent is accepted; `A*B` is not. -/
theorem test_valC39 : resp (.valC39 0 0) State.reset = ok 0 ∧ resp (.valC39 0 3) (withData [65, 42, 66]) = ko .eChar ∧
    resp (.valC39 0 8) (withData [72, 101, 108, 108, 111, 45, 51, 57]) = ok 0 := by
  decide +kernel

/-- 95 section 11: shape before content, range before shape. -/
theorem test_valItf : resp (.valItf 0 3) (withData [49, 50, 65]) = ko .eShape ∧
    resp (.valItf 0 4) (withData [49, 50, 65]) = ko .eRange ∧ resp (.valItf 0 4) (withData [49, 50, 65, 52]) = ko .eChar ∧
    resp (.valItf 0 0) State.reset = ok 0 := by
  decide +kernel

theorem test_valCbar : resp (.valCbar 0 5) (withData [97, 49, 50, 51, 98]) = ok 0 ∧
    resp (.valCbar 0 4) (withData [65, 49, 50, 69]) = ko .eChar ∧ resp (.valCbar 0 0) State.reset = ko .eShape := by
  decide +kernel

theorem test_valC93 : resp (.valC93 0 4) (withData [84, 69, 83, 84]) = ok 2 ∧ resp (.valC93 0 0) State.reset = ko .eShape ∧
    resp (.valC93 0 4) (withData [84, 69, 42, 84]) = ko .eChar := by
  decide +kernel

/-! ## Matrix, mask, penalty, best mask (95 sections 1, 9 and 12; 46 R239, R247, R248) -/

theorem test_matInit : resp (.matInit 1) State.reset = ok 21 ∧ resp (.matInit 40) State.reset = ok 177 ∧
    resp (.matInit 0) State.reset = ko .eArg ∧ resp (.matInit 41) State.reset = ko .eArg := by
  decide +kernel

/-- A cell of the new square is blanked; a cell outside it stays. -/
theorem test_matInit_cells : (after (.matInit 1)
      { State.reset with matVer := 2, mat := [(cellKey 20 20, ⟨.dark, true⟩), (cellKey 20 21, ⟨.light, false⟩)] }).map State.mat =
    some [(cellKey 20 21, ⟨.light, false⟩)] := by
  decide +kernel

theorem test_matWr : (after (.matWr 6 8 2) { State.reset with matVer := 1, penValid := true }).map
    (fun t => (t.mat, t.penValid)) = some ([(177 * 6 + 8, ⟨.light, true⟩)], false) := by
  decide +kernel

theorem test_matWr_fails : resp (.matWr 200 0 0) State.reset = ko .eState ∧
    resp (.matWr 0 21 0) { State.reset with matVer := 1 } = ko .eRange := by
  decide +kernel

/-- 46 R233: a dark reserved cell reads 7, an unset one 0. -/
theorem test_matRd : resp (.matRd 20 0) { State.reset with matVer := 1, mat := [(177 * 20, ⟨.dark, true⟩)] } = ok 7 ∧
    resp (.matRd 0 20) { State.reset with matVer := 1, mat := [(177 * 20, ⟨.dark, true⟩)] } = ok 0 := by
  decide +kernel

theorem test_matRd_fails : resp (.matRd 13 8) State.reset = ko .eState ∧
    resp (.matRd 21 0) { State.reset with matVer := 1 } = ko .eRange := by
  decide +kernel

theorem test_maskBit : resp (.maskBit 0 0 1) State.reset = ok 0 ∧ resp (.maskBit 2 5 3) State.reset = ok 1 ∧
    resp (.maskBit 3 255 255) State.reset = ok 1 ∧ resp (.maskBit 4 2 2) State.reset = ok 0 := by
  decide +kernel

theorem test_maskBit_products : resp (.maskBit 5 3 4) State.reset = ok 1 ∧ resp (.maskBit 5 255 255) State.reset = ok 0 ∧
    resp (.maskBit 6 1 1) State.reset = ok 1 ∧ resp (.maskBit 7 255 254) State.reset = ok 0 := by
  decide +kernel

theorem sorted_light : lightMatrix.mat.Pairwise (fun x y => x.1 < y.1) :=
  have : IsTrans (Nat × MatCell) (fun x y => x.1 < y.1) := ⟨fun _ _ _ => Nat.lt_trans⟩
  List.isChain_iff_pairwise.mp (by decide +kernel)

theorem inv_light : lightMatrix.Inv :=
  have h : (∀ x ∈ lightMatrix.mat, x.2 ≠ blankCell) ∧ Memory.within (matMax * matMax) lightMatrix.mat ∧
      ∀ x ∈ lightMatrix.mat, x.2.st ≠ .unset := by decide +kernel
  have h0 := witness_inv_reset
  { rom := h0.rom, dbuf_wf := h0.dbuf_wf, dbuf_within := h0.dbuf_within, dlen_le := h0.dlen_le, vbuf_wf := h0.vbuf_wf,
    vbuf_within := h0.vbuf_within, vlen_le := h0.vlen_le, rsN_le := h0.rsN_le, rsGen_wf := h0.rsGen_wf,
    rsGen_within := h0.rsGen_within, rsRem_wf := h0.rsRem_wf, rsRem_within := h0.rsRem_within,
    matVer_le := by decide, mat_wf := ⟨sorted_light, h.1⟩, mat_within := h.2.1, mat_set := h.2.2 }

theorem light_cells (r c : Nat) (hr : r < 21) (hc : c < 21) : lightMatrix.cell r c = ⟨.light, false⟩ :=
  readMem_of_mem blankCell lightMatrix.mat (cellKey r c, ⟨.light, false⟩) inv_light.mat_wf
    (List.mem_map.mpr ⟨(r, c), by simp [coords, hr, hc], by simp [cellOfBits]⟩)

theorem light_square : lightMatrix.square = List.replicate 21 (List.replicate 21 ⟨.light, false⟩) := by
  rw [State.square, show lightMatrix.side = 21 from rfl]
  refine List.eq_replicate_iff.mpr ⟨by simp, fun row h => ?_⟩
  obtain ⟨r, hr, rfl⟩ := List.mem_map.mp h
  refine List.eq_replicate_iff.mpr ⟨by simp, fun x h' => ?_⟩
  obtain ⟨c, hc, rfl⟩ := List.mem_map.mp h'
  exact light_cells r c (List.mem_range.mp hr) (List.mem_range.mp hc)

/-- 46 R239: mask 6 flips 293 of the 441 cells. -/
theorem test_maskApply : resp (.maskApply 6) lightMatrix = ok 293 := by
  have hm : ∀ p ∈ coords 21, lightMatrix.cell p.1 p.2 = ⟨.light, false⟩ := fun p hp => by
    simp only [coords, List.mem_flatMap, List.mem_map, List.mem_range] at hp
    obtain ⟨r, hr, c, hc, rfl⟩ := hp
    exact light_cells r c hr hc
  have h1 : lightMatrix.dataUnset = false := by
    refine List.any_eq_false.mpr fun p hp => ?_
    rw [hm p hp]
    decide
  have h2 : lightMatrix.maskCount (unitConfig.maskPred 6) = 293 := by
    rw [State.maskCount, show lightMatrix.side = 21 from rfl,
      List.countP_congr fun p hp => by rw [hm p hp]]
    decide +kernel
  have h3 : lightMatrix.matVer ≠ 0 := by decide
  have h4 : (exec (.maskApply 6) lightMatrix) = respond
      (lightMatrix.setMatrix (maskSquare (unitConfig.maskPred 6) lightMatrix.side lightMatrix.mat)) (natWord 293) := by
    rw [exec, execMaskApply, maskApplyWith, if_neg h3, h1, if_neg Bool.false_ne_true, h2]
  rw [resp, after, h4]
  rfl

/-- An unreserved cell is still unset: the mask is refused. -/
theorem test_maskApply_fails : resp (.maskApply 0) { State.reset with matVer := 1 } = ko .eState ∧
    resp (.maskApply 0) State.reset = ko .eState := by
  decide +kernel

/-- 46 R247: the light matrix. -/
theorem test_penScore : after .penScore lightMatrix = some { scoredMatrix with responses := [.ok 2088] } := by
  have h : lightMatrix.matVer ≠ 0 := by decide
  have h' : (List.replicate 21 (List.replicate 21 (⟨.light, false⟩ : MatCell))).any
      (fun row => row.any fun x => x.st == .unset) = false := by decide +kernel
  have ha : penaltyA (darkRows (List.replicate 21 (List.replicate 21 ⟨.light, false⟩))) = 798 := by decide +kernel
  have hb : penaltyB (darkRows (List.replicate 21 (List.replicate 21 ⟨.light, false⟩))) = 1200 := by decide +kernel
  have hc : penaltyC unitConfig (darkRows (List.replicate 21 (List.replicate 21 ⟨.light, false⟩))) = 0 := by decide +kernel
  have hd : penaltyD (darkRows (List.replicate 21 (List.replicate 21 ⟨.light, false⟩))) = 90 := by decide +kernel
  rw [after, exec, execPenScore, penScoreWith, if_neg h, light_square, if_neg (by rw [h']; decide)]
  simp only [ha, hb, hc, hd]
  rfl

/-- 46 R248: row 5, columns 7 to 13 hold `1 0 1 1 1 0 1`; both templates match. -/
theorem test_penalty_templates :
    let rows := (List.range 21).map fun r => (List.range 21).map fun c => r == 5 && [7, 9, 10, 11, 13].contains c
    (penaltyA rows, penaltyB rows, penaltyC unitConfig rows, penaltyD rows) = (774, 1152, 80, 90) := by
  decide +kernel

theorem test_bestClr : after .bestClr { State.reset with bestId := 3, bestPen := 5, bestValid := true } =
    some { State.reset with bestId := 3, bestPen := 5, responses := [.ok 0] } := by
  decide +kernel

/-- A tie keeps the first. -/
theorem test_bestUpd_tie : resp (.bestUpd 2)
    { State.reset with penTotal := 399, penValid := true, bestId := 1, bestPen := 399, bestValid := true } = ok 1 := by
  decide +kernel

theorem test_bestUpd : (after (.bestUpd 3)
      { State.reset with penTotal := 88, penValid := true, bestId := 1, bestPen := 399, bestValid := true }).map
      (fun t => (t.bestId, t.bestPen, t.bestValid)) = some (3, 88, true) ∧
    resp (.bestUpd 7) State.reset = ko .eState := by
  decide +kernel

/-! ## The step -/

/-- A step takes the word that `withFetchWord` presents. -/
theorem test_step : stepped (State.reset.withFetchWord 32 0x11000041) =
    some { withData [0x41] with responses := [.ok 1] } := by
  decide +kernel

/-- A hardware reset puts the reset state in place and gives no response. -/
theorem test_step_hardReset :
    stepped { withData [0x41] with inputs := [.hardReset (some 0x01000000), .command 0] } =
      some { State.reset with inputs := [.command 0] } := by
  decide +kernel

/-! ## Witnesses: the hypotheses of the statements can be met -/

/-- EncodeOfDecodeIsTheWord: the last word of the map. -/
theorem witness_encodeOfDecode : decode 0x50FFFFFF = .ok (.valC93 4095 4095) := by decide

/-- StepRunsTheDecodedCommand, EveryStepGoesOnWithOneResponse: a word that decodes, another behind it. -/
theorem witness_step : (pending [0x1100007B, 0]).inputs = [.command 0x1100007B, .command 0] ∧
    decode 0x1100007B = .ok (.dPush 0x7B) := by
  decide

/-- IllegalOpcodeBytesFail: both branches, at the ends of a legal family. -/
theorem witness_illegal : (pending [0x17FFFFFF]).inputs = [.command 0x17FFFFFF] ∧
    illegalByte ((0x17FFFFFF : Word).extractLsb' 24 8).toNat = true ∧
    illegalByte ((0x16FFFFFF : Word).extractLsb' 24 8).toNat = false := by
  decide

/-- MustBeZeroBitsFail: one bit of the narrowed operand of `MAT.WR`. -/
theorem witness_mustBeZero : ((0x61000000, 0xFF0000FC) : Word × Word) ∈ opcodeRows ∧
    (0x61000004 : Word).extractLsb' 24 8 = (0x61000000 : Word).extractLsb' 24 8 ∧
    (0x61000004 : Word) &&& 0xFF0000FC ≠ 0x61000000 := by
  decide

/-- FailingWordChangesNothing: a word that fails. -/
theorem witness_failingWord : acceptWord 0x2A000001 (withData [0x41]) = .next (failed (withData [0x41]) .eState) := rfl

/-- StateIsWrittenOnlyByItsOwners: a command that goes on. -/
theorem witness_owners : exec (.bestUpd 7) { State.reset with penValid := true } =
    .next { State.reset with penValid := true, bestId := 7, bestValid := true, responses := [.ok 7] } := rfl

/-- Stale bytes beyond the fill pointers, and outside them everything else that no command observes. -/
def stale : State :=
  { withData [7, 8] with dlen := 1, vbuf := [(4095, 9)], rsRem := [(29, 1)], rsGen := [(30, 1)], penA := 5, bestPen := 6 }

theorem witness_inv_stale : stale.Inv := inv_of_checks (by decide +kernel)

theorem witness_inv_data : (withData [7]).Inv := inv_of_checks (by decide +kernel)

/-- UnobservableStorageIsNeverObserved: two states that differ, and only where no command looks. -/
theorem witness_unobservable : stale.Inv ∧ (withData [7]).Inv ∧ stale ≠ withData [7] ∧ stale.ObsEq (withData [7]) := by
  refine ⟨witness_inv_stale, witness_inv_data, by decide +kernel, ⟨⟨rfl, rfl⟩, rfl, ?_, rfl, ?_, rfl, ?_, ?_, rfl, ?_, rfl, ?_, rfl, ?_⟩⟩
  · exact fun i hi => (by decide +kernel : ∀ i, i < stale.dlen.toNat → stale.dataAt i = (withData [7]).dataAt i) i hi
  · exact fun i hi => absurd hi (Nat.not_lt_zero i)
  · exact fun h => absurd rfl h
  · exact fun i hi => absurd hi (Nat.not_lt_zero i)
  · exact fun r _ hr _ => absurd hr (Nat.not_lt_zero r)
  · exact fun h => absurd h (by decide)
  · exact fun h => absurd h (by decide)

/-- A state with a generator of degree 7, the data of 95 section 4, and a word to take. -/
def genState : State := { withGen 7 gen7 [1, 2, 3] [0x41, 0x42, 0x43] with inputs := [.command 0x2A000041] }

theorem witness_inv_gen : genState.Inv := inv_of_checks (by decide +kernel)

/-- StepKeepsTheStateInvariant, StepKeepsTheGenerator, EncodeLeavesThePolynomialRemainder, CodewordsFedBackLeaveZero: a
generator, a step that goes on, an extent that ends at `DLEN`. -/
theorem witness_generator : genState.Inv ∧ genState.GenInv ∧ genState.rsN ≠ 0 ∧ (stepped genState).isSome = true ∧
    (0 : BitVec 12).toNat + (3 : BitVec 12).toNat ≤ genState.dlen.toNat :=
  ⟨witness_inv_gen, fun _ => by decide +kernel, by decide, by decide +kernel, by decide⟩

/-- SoftResetErasesTheHistory: a history, and two words. -/
theorem witness_softReset : genState.Inv ∧ [(0x0200000C : Word), 0x2C000000].length = 2 := ⟨witness_inv_gen, rfl⟩

/-- IdleStepAndHardwareReset: an empty and a resetting input list. -/
theorem witness_idle : (withData [7]).inputs = [] ∧
    { withData [7] with inputs := [.hardReset none] }.inputs = [.hardReset none] := by
  decide

/-- SoftResetWritesSixRegisters and the GF(256) statements: the ROM of a state that is not reset. -/
theorem witness_romOk : genState.romOk := ⟨rfl, rfl⟩

/-- Full and nearly full buffers: both clauses of DataPushAppendsOneByte and ValuePushAppendsOneValue. -/
theorem witness_push :
    (withData [7]).Inv ∧ (withData [7]).dlen.toNat ≠ 4096 ∧ (withData [7]).vlen.toNat ≠ 4096 ∧
    ({ State.reset with dlen := 4096, vlen := 4096 } : State).Inv ∧
    ({ State.reset with dlen := 4096, vlen := 4096 } : State).dlen.toNat = 4096 ∧
    ({ State.reset with dlen := 4095, vlen := 4095 } : State).Inv :=
  ⟨witness_inv_data, by decide, by decide, inv_of_checks (by decide +kernel), by decide, inv_of_checks (by decide +kernel)⟩

/-- BuffersHoldWhatWasPushed: as many bytes as fit. -/
theorem witness_buffersHold : genState.Inv ∧ (List.replicate 4096 (0xFF : Byte)).length ≤ 4096 :=
  ⟨witness_inv_gen, by rw [List.length_replicate]⟩

/-- The Reed-Solomon statements: no generator; the ends of the range of `n`; an extent past `DLEN`. -/
theorem witness_reedSolomon : State.reset.Inv ∧ State.reset.rsN = 0 ∧ genState.Inv ∧ genState.rsN ≠ 0 ∧
    genState.dlen.toNat < (0 : BitVec 12).toNat + (4 : BitVec 12).toNat ∧
    ¬((1 : Byte).toNat = 0 ∨ 30 < (1 : Byte).toNat) ∧ ¬((30 : Byte).toNat = 0 ∨ 30 < (30 : Byte).toNat) ∧
    ((31 : Byte).toNat = 0 ∨ 30 < (31 : Byte).toNat) :=
  ⟨witness_inv_reset, rfl, witness_inv_gen, by decide, by decide, by decide, by decide, by decide⟩

theorem witness_inv_barcodes : (withData [123, 66, 53]).Inv := inv_of_checks (by decide +kernel)

/-- Code128SequencerRunsItsLoop: out of range, a failing extent, a sequence. -/
theorem witness_code128 : (withData [123, 66, 53]).Inv ∧
    (withData [123, 66, 53]).dlen.toNat < (1 : BitVec 12).toNat + (3 : BitVec 12).toNat ∧
    sequence128Of (bytesOf (withData [123, 66, 53]) 0 1) = .error .eEsc ∧
    sequence128Of (bytesOf (withData [123, 66, 53]) 0 3) = .ok [104, 21] :=
  ⟨witness_inv_barcodes, by decide, by decide +kernel, by decide +kernel⟩

/-- The checksum statements: an empty buffer, the greatest admitted value, the least refused one. -/
theorem witness_checksums : State.reset.vlen.toNat = 0 ∧ (withValues [9, 46, 105]).vlen.toNat ≠ 0 ∧
    (∀ i, i < (withValues [105]).vlen.toNat → valueNat (withValues [105]) i ≤ 105) ∧
    (∀ i, i < (withValues [9]).vlen.toNat → valueNat (withValues [9]) i ≤ 9) ∧
    (∀ i, i < (withValues [46]).vlen.toNat → valueNat (withValues [46]) i ≤ 46) ∧
    105 < valueNat (withValues [106]) 0 ∧ 9 < valueNat (withValues [10]) 0 ∧ 46 < valueNat (withValues [47]) 0 := by
  decide +kernel

/-- UpceExpanderRunsItsAlgorithm: out of range, a failing extent, an expansion. -/
theorem witness_upce : (withData [52, 50, 53, 50, 54, 49]).Inv ∧
    (withData [52, 50, 53, 50, 54, 49]).dlen.toNat < (0 : BitVec 12).toNat + (7 : BitVec 12).toNat ∧
    (expandUpce (bytesOf (withData [52, 50, 53, 50, 54, 49]) 0 5)).toBool = false ∧
    (expandUpce (bytesOf (withData [52, 50, 53, 50, 54, 49]) 0 6)).toBool = true :=
  ⟨inv_of_checks (by decide +kernel), by decide, by decide +kernel, by decide +kernel⟩

/-- Code93SequencerMapsEveryByte: out of range, empty, a byte outside the symbols, symbols only. -/
theorem witness_code93 : (withData [84, 42]).Inv ∧ (withData [84, 42]).dlen.toNat < (2 : BitVec 12).toNat + (1 : BitVec 12).toNat ∧
    ((bytesOf (withData [84, 42]) 0 2).any fun b => !(code93Symbols.contains (folded b))) = true ∧
    ((bytesOf (withData [84, 42]) 0 1).any fun b => !(code93Symbols.contains (folded b))) = false :=
  ⟨inv_of_checks (by decide +kernel), by decide, by decide +kernel, by decide +kernel⟩

/-- MatrixInitBlanksTheSquare, MatrixWriteWritesOneCell, MatrixReadRespondsTheCell: no matrix, the smallest and the
largest, a cell in the last corner and one just outside. -/
theorem witness_matrix : State.reset.Inv ∧ State.reset.matVer = 0 ∧
    ({ State.reset with matVer := 40, mat := [(177 * 176 + 176, ⟨.dark, true⟩)] } : State).Inv ∧
    sideNat { State.reset with matVer := 40 } = 177 ∧
    ¬(sideNat { State.reset with matVer := 40 } ≤ (176 : Byte).toNat) ∧
    sideNat { State.reset with matVer := 40 } ≤ (177 : Byte).toNat ∧
    ¬((40 : BitVec 6).toNat < 1 ∨ 40 < (40 : BitVec 6).toNat) ∧ ((41 : BitVec 6).toNat < 1 ∨ 40 < (41 : BitVec 6).toNat) :=
  ⟨witness_inv_reset, rfl, inv_of_checks (by decide +kernel), by decide, by decide, by decide, by decide, by decide⟩

/-- MaskBitEvaluatesTheFormula: a cell where the formula holds and one where it does not. -/
theorem witness_maskBit : maskFormula 5 3 4 ∧ ¬maskFormula 5 255 255 := by
  unfold maskFormula
  decide

/-- MaskApplyInvertsTheMaskedCells, MasksAreInvolutionsAndCommute, PenaltyScoreMeetsTheFourRules: a matrix with every
cell set. -/
theorem witness_lightMatrix : lightMatrix.Inv ∧ lightMatrix.matVer ≠ 0 ∧ dataSet lightMatrix ∧ allSet lightMatrix :=
  ⟨inv_light, by decide,
    fun r c hr hc _ => by rw [light_cells r c hr hc]; decide,
    fun r c hr hc => by rw [light_cells r c hr hc]; decide⟩

/-- The same statements: a matrix with a cell that is not set. -/
theorem witness_unsetMatrix : ({ State.reset with matVer := 40 } : State).Inv ∧
    ({ State.reset with matVer := 40 } : State).matVer ≠ 0 ∧
    ¬dataSet { State.reset with matVer := 40 } ∧ ¬allSet { State.reset with matVer := 40 } :=
  ⟨inv_of_checks (by decide +kernel), by decide,
    fun h => h 0 0 (by decide) (by decide) rfl rfl, fun h => h 0 0 (by decide) (by decide) rfl⟩

/-- StepKeepsValidScoresCurrent: a score that is valid. -/
theorem witness_validScore : scoredMatrix.PenInv ∧ scoredMatrix.penValid = true ∧
    (stepped { scoredMatrix with inputs := [.command 0] }).isSome = true := by
  refine ⟨?_, rfl, rfl⟩
  unfold State.PenInv
  rw [show scoredMatrix.square = lightMatrix.square from rfl, light_square]
  exact fun _ => ⟨by decide, by decide +kernel, by decide +kernel, by decide +kernel, by decide +kernel, by decide +kernel,
    by decide⟩

theorem inv_scored : scoredMatrix.Inv :=
  have h := inv_light
  { rom := h.rom, dbuf_wf := h.dbuf_wf, dbuf_within := h.dbuf_within, dlen_le := h.dlen_le, vbuf_wf := h.vbuf_wf,
    vbuf_within := h.vbuf_within, vlen_le := h.vlen_le, rsN_le := h.rsN_le, rsGen_wf := h.rsGen_wf,
    rsGen_within := h.rsGen_within, rsRem_wf := h.rsRem_wf, rsRem_within := h.rsRem_within, matVer_le := h.matVer_le,
    mat_wf := h.mat_wf, mat_within := h.mat_within, mat_set := h.mat_set }

/-- PenaltyScoresAreBounded: a valid score in a state that meets both invariants. -/
theorem witness_boundedScore : scoredMatrix.Inv ∧ scoredMatrix.PenInv ∧ scoredMatrix.penValid = true :=
  ⟨inv_scored, witness_validScore.1, witness_validScore.2.1⟩

/-- BestRegisterSelectsTheFirstLowest: offers with a tie. -/
theorem witness_offers : [((1 : BitVec 3), (399 : BitVec 32)), (2, 399)] ≠ [] := by decide

end Sys2Proof.Tests
end

section
/-! PROOFS. Words and responses: what a row of the opcode map says about `decode`, and what a response changes. -/

namespace Sys2Proof.Proofs

open Sys2Proof.Machine Sys2Proof.Claims

/-- A row of the opcode map decides every word with its opcode byte (30 R91). -/
theorem decodesAs_of_rowOf {op op' : Byte} {mustBeZero : Word} {build : Word → Instr}
    (h : rowOf op = some ⟨op', mustBeZero, build⟩) : decodesAs op mustBeZero build := by
  intro w hw
  have hrow : rowOf (opOf w) = some ⟨op', mustBeZero, build⟩ := by rw [opOf, hw, h]
  simp only [decode, hrow]

/-- The state that a command leaves when it responds a value of `k` bits. -/
theorem emit_zext32 {k : Nat} (s : State) (v : BitVec k) : s.emit (.ok (zext32 v)) = gave s v.toNat := by
  rw [gave, BitVec.ofNat_toNat]
  rfl

@[simp] theorem gave_genAt (s : State) (v i : Nat) : (gave s v).genAt i = s.genAt i := rfl

@[simp] theorem gave_remAt (s : State) (v i : Nat) : (gave s v).remAt i = s.remAt i := rfl

end Sys2Proof.Proofs
end

section
/-! PROOFS. GF(256): what the two tables of 40 R111 and R112 say about the powers of α and about `GFMUL`. -/

namespace Sys2Proof.Proofs

open Sys2Proof.Machine Sys2Proof.Claims

/-- `XTIME` takes each entry of `EXP` to the next (10 R24). -/
theorem expAt_succ : ∀ i, i < 254 → expAt expTable (i + 1) = xtime (expAt expTable i) := by
  decide +kernel

/-- `EXP` holds the powers of α (10 R24). -/
theorem expAt_eq_alphaPow {i : Nat} (hi : i < 255) : expAt expTable i = alphaPow i := by
  induction i with
  | zero => rfl
  | succ i ih =>
    rw [expAt_succ i (by omega), ih (by omega)]
    exact (Function.iterate_succ_apply' xtime i 1).symm

/-- `EXP` undoes `LOG` (40 R119), and every logarithm is reduced modulo 255. -/
theorem expAt_logAt : ∀ k : Byte, k ≠ 0 →
    expAt expTable (logAt logTable k).toNat = k ∧ (logAt logTable k).toNat < 255 := by
  decide +kernel

theorem gfMul_comm (exp log : List Byte) (a b : Byte) : gfMul exp log a b = gfMul exp log b a := by
  simp only [gfMul, or_comm, Nat.add_comm]

theorem gfMul_one_left (k : Byte) : gfMul expTable logTable 1 k = k := by
  by_cases hk : k = 0
  · simp [gfMul, hk]
  · obtain ⟨hinv, hlt⟩ := expAt_logAt k hk
    have hlog : (logAt logTable 1).toNat = 0 := by decide
    rw [gfMul, if_neg (not_or.mpr ⟨by decide, hk⟩), hlog, Nat.zero_add, Nat.mod_eq_of_lt hlt, hinv]

end Sys2Proof.Proofs
end

section
/-! PROOFS. Polynomials over GF(256): a round of `RS.GEN` is a product with a linear factor (41 R131, R132). -/

namespace Sys2Proof.Proofs

open Sys2Proof.Machine Sys2Proof.Claims

/-- Adding the zero polynomial of the same length. -/
theorem zipWith_xor_zeros {g : List Byte} {n : Nat} (h : g.length = n) :
    List.zipWith (· ^^^ ·) (List.replicate n 0) g = g := by
  subst h
  induction g with
  | nil => rfl
  | cons k g ih =>
    rw [List.length_cons, List.replicate_succ, List.zipWith_cons_cons, ih]
    simp

theorem genRound_length (mul : Byte → Byte → Byte) (g : List Byte) (root : Byte) :
    (genRound mul g root).length = g.length + 1 := by
  simp [genRound]

/-- One more coefficient in front shifts the round's result and adds the coefficient's product with the root. -/
theorem genRound_cons (mul : Byte → Byte → Byte) (f : Byte) (fs : List Byte) (root : Byte) :
    genRound mul (f :: fs) root =
      f :: List.zipWith (· ^^^ ·) (mul f root :: List.replicate fs.length 0) (genRound mul fs root) := by
  cases fs with
  | nil => simp [genRound]
  | cons g gs =>
    have hzeros : List.zipWith (· ^^^ ·) (List.replicate (gs.length + 1) 0)
          (List.zipWith (· ^^^ ·) (gs ++ [0]) ((g :: gs).map fun k => mul k root)) =
        List.zipWith (· ^^^ ·) (gs ++ [0]) ((g :: gs).map fun k => mul k root) :=
      zipWith_xor_zeros (by simp)
    simpa [genRound, BitVec.xor_comm] using hzeros.symm

/-- A round of `RS.GEN` multiplies by `x + root`, for a commutative product with unit 1. -/
theorem polyMul_linear {mul : Byte → Byte → Byte} (hone : ∀ k, mul 1 k = k) (hcomm : ∀ a b, mul a b = mul b a)
    (g : List Byte) (root : Byte) : polyMul mul g [1, root] = genRound mul g root := by
  induction g with
  | nil => rfl
  | cons f fs ih =>
    rw [genRound_cons, ← ih, hcomm f root, polyMul, List.map_cons, hone]
    simp

theorem generatorPoly_succ (mul : Byte → Byte → Byte) (alpha : Nat → Byte) (n : Nat) :
    generatorPoly mul alpha (n + 1) = genRound mul (generatorPoly mul alpha n) (alpha n) := by
  simp [generatorPoly, List.range_succ]

theorem linearFactors_succ (mul : Byte → Byte → Byte) (n : Nat) :
    linearFactors mul (n + 1) = polyMul mul (linearFactors mul n) [1, alphaPow n] := by
  simp [linearFactors, List.range_succ]

theorem generatorPoly_length (mul : Byte → Byte → Byte) (alpha : Nat → Byte) (n : Nat) :
    (generatorPoly mul alpha n).length = n + 1 := by
  induction n with
  | zero => rfl
  | succ n ih => rw [generatorPoly_succ, genRound_length, ih]

/-- `RS.GEN`'s loop computes the product of the linear factors (41 R131), as far as `EXP` goes. -/
theorem generatorPoly_eq_linearFactors {n : Nat} (hn : n ≤ 255) :
    generatorPoly (gfMul expTable logTable) (expAt expTable) n = linearFactors (gfMul expTable logTable) n := by
  induction n with
  | zero => rfl
  | succ n ih =>
    rw [generatorPoly_succ, linearFactors_succ, polyMul_linear gfMul_one_left (gfMul_comm _ _), ih (by omega),
      expAt_eq_alphaPow (by omega)]

end Sys2Proof.Proofs
end

section
/-! PROOFS. Reed-Solomon: what `RS.GEN` writes and what it leaves unchanged (41 R132). -/

namespace Sys2Proof.Proofs

open Sys2Proof.Machine Sys2Proof.Claims

theorem mul_of_romOk {s : State} (h : s.romOk) : s.mul = gfMul expTable logTable := by
  funext a b
  rw [State.mul, h.1, h.2]

theorem generator_eq_map_genAt (s : State) : s.generator = (List.range (s.rsN.toNat + 1)).map s.genAt := by
  simp [State.generator, State.genAt, readSeq]

/-- `RS.GEN` zeroes the remainder below the new `RS_N`; every index above is as before. -/
theorem setGenerator_remAt (s : State) (n : BitVec 8) (g : List Byte) (k : Nat) (h : Memory.wf blankByte s.rsRem) :
    (s.setGenerator n g).remAt k = if k < n.toNat then 0 else s.remAt k := by
  have hread := readMem_writeSeq blankByte (List.replicate n.toNat 0) s.rsRem 0 k h
  by_cases hk : k < n.toNat <;> simpa [State.remAt, hk] using hread

/-- `RS.GEN n` when `n` passes its check: the generator set up, and the response `n`. -/
theorem exec_rsGen {n : Byte} {s : State} (hrom : s.romOk) (hn : ¬(n.toNat = 0 ∨ 30 < n.toNat)) :
    exec (.rsGen n) s =
      .next (gave (s.setGenerator n (linearFactors (gfMul expTable logTable) n.toNat)) n.toNat) := by
  rw [← emit_zext32, ← generatorPoly_eq_linearFactors (by omega), ← mul_of_romOk hrom, ← hrom.1]
  exact if_neg hn

theorem exec_rsGen_eArg {n : Byte} (s : State) (hn : n.toNat = 0 ∨ 30 < n.toNat) :
    exec (.rsGen n) s = .next (failed s .eArg) := if_pos hn

/-- Settles O31: each round of `RS.GEN`'s loop multiplies by one linear factor (`polyMul_linear`), with the roots read
from `EXP`; the memory laws give what the three registers hold and keep. -/
theorem generatorCommandBuildsTheProduct : Obligations.GeneratorCommandBuildsTheProduct := by
  refine ⟨decodesAs_of_rowOf rfl, fun n s hs => ?_⟩
  by_cases hn : n.toNat = 0 ∨ 30 < n.toNat
  · rw [if_pos hn, exec_rsGen_eArg s hn]
  · rw [if_neg hn]
    have hlen : (linearFactors (gfMul expTable logTable) n.toNat).length = n.toNat + 1 := by
      rw [← generatorPoly_eq_linearFactors (by omega), generatorPoly_length]
    refine ⟨_, exec_rsGen hs.rom hn, rfl, ?_, fun k hk => ?_, fun k => ?_⟩
    · have hgen := setGenerator_generator s n _ hs.rsGen_wf hlen
      rwa [generator_eq_map_genAt, State.setGenerator_rsN] at hgen
    · rw [gave_genAt, setGenerator_genAt s n _ k hs.rsGen_wf, if_neg (by omega)]
    · rw [gave_remAt, setGenerator_remAt s n _ k hs.rsRem_wf]

end Sys2Proof.Proofs
end

section
/-! PROOFS. What a command writes: `exec` answers every command with one response, on the state as it was or after one
of the named state changes of Machine/Ops.lean. -/

namespace Sys2Proof.Proofs

open Sys2Proof.Machine Sys2Proof.Claims

/-! ## How much a sequencer puts out -/

theorem consValue_ok {v : Option Byte} {rest : Except FailCode (List Byte)} {out : List Byte}
    (h : consValue v rest = .ok out) : ∃ x tail, rest = .ok tail ∧ out = x :: tail := by
  cases v with
  | none => cases h
  | some x =>
    cases rest with
    | error e => cases h
    | ok tail =>
      injection h with h
      exact ⟨x, tail, rfl, h.symm⟩

/-- A value in front of a scan's output, for at least one byte more of input. -/
theorem length_le_of_consValue {v : Option Byte} {rest : Except FailCode (List Byte)} {out : List Byte} {n m : Nat}
    (h : consValue v rest = .ok out) (ih : ∀ tail, rest = .ok tail → tail.length ≤ n) (hnm : n < m) :
    out.length ≤ m := by
  obtain ⟨x, tail, hrest, rfl⟩ := consValue_ok h
  exact Nat.le_trans (Nat.succ_le_succ (ih tail hrest)) hnm

/-- The scan of 43 R170 gives at most one value per byte. -/
theorem scan128_length (c : Config) (set : CodeSet) (bytes : List Byte) :
    ∀ out, scan128 c set bytes = .ok out → out.length ≤ bytes.length := by
  fun_induction scan128 c set bytes with
  | case1 => rintro out ⟨⟩; rfl
  | case2 | case3 | case6 | case9 => rintro out ⟨⟩
  | case4 _ _ _ _ _ _ ih | case5 _ _ _ ih | case7 _ _ _ ih | case8 _ _ _ ih | case10 _ _ _ _ ih =>
    exact fun out h => length_le_of_consValue h ih (by simp)

theorem leading128_length (c : Config) (bytes : List Byte) : (leading128 c bytes).2.length ≤ bytes.length := by
  unfold leading128
  repeat' split
  all_goals simp <;> omega

/-- The start value, then at most one value per byte (43 R170). -/
theorem sequence128_length {c : Config} {bytes out : List Byte} (h : sequence128 c bytes = .ok out) :
    out.length ≤ bytes.length + 1 := by
  unfold sequence128 at h
  split at h
  · cases h
  · refine length_le_of_consValue h (n := bytes.length) (fun tail htail => ?_) (Nat.lt_succ_self _)
    exact Nat.le_trans (scan128_length c _ _ tail htail) (leading128_length c bytes)

/-- Code93 gives one value per byte (45 R208). -/
theorem scan93_length (c : Config) (bytes : List Byte) :
    ∀ out, scan93 c bytes = .ok out → out.length = bytes.length := by
  fun_induction scan93 c bytes with
  | case1 => rintro out ⟨⟩; rfl
  | case2 | case3 => rintro out ⟨⟩
  | case4 b rest v hv tail htail ih => rintro out ⟨⟩; simp [ih tail htail]

theorem sequence93_length {c : Config} {bytes out : List Byte} (h : sequence93 c bytes = .ok out) :
    out.length = bytes.length := by
  unfold sequence93 at h
  split at h
  · cases h
  · exact scan93_length c bytes out h

/-- The expansion of 44 R192 and the check digit fit the value buffer. -/
theorem upceDigits_length (u : UpceInput) : (upceDigits unitConfig u).1.length ≤ vbufSize := by
  have h : (upceExpandDefault u.ns u.core).length ≤ 11 := by
    unfold upceExpandDefault
    repeat' split
    all_goals simp
  simp only [upceDigits, List.length_append, List.length_singleton, vbufSize]
  exact Nat.le_trans (Nat.succ_le_succ h) (by decide)

theorem feedRound_length (mul : Byte → Byte → Byte) (gen rem : List Byte) (d : Byte) (h : gen.length = rem.length + 1) :
    (feedRound mul gen rem d).length = rem.length := by
  cases rem with
  | nil => rfl
  | cons top rest => simp [feedRound, h]

theorem foldl_feedRound_length (mul : Byte → Byte → Byte) (gen bytes : List Byte) :
    ∀ rem : List Byte, gen.length = rem.length + 1 → (bytes.foldl (feedRound mul gen) rem).length = rem.length := by
  induction bytes with
  | nil => exact fun rem _ => rfl
  | cons d bytes ih =>
    intro rem h
    have hlen := feedRound_length mul gen rem d h
    rw [List.foldl_cons, ih _ (hlen ▸ h), hlen]

/-! ## The writes of each command -/

/-- `Writes i s u`: the command `i`, given in `s`, may change the unit to `u`. A command that fails or only reads writes
nothing; else it makes its own named state change, under the conditions of its checks. -/
inductive Writes : Instr → State → State → Prop
  | nothing {i s} : Writes i s s
  | srst {s} : Writes .srst s s.softReset
  | dClr {s} : Writes .dClr s s.clearData
  | dPush {b s} (hroom : s.dlen.toNat ≠ dbufSize) : Writes (.dPush b) s (s.pushData b)
  | vClr {s} : Writes .vClr s s.clearValues
  | vPush {b s} (hroom : s.vlen.toNat ≠ vbufSize) : Writes (.vPush b) s (s.pushValue b)
  | c128Seq {base len out s} (hfit : out.length ≤ vbufSize) : Writes (.c128Seq base len) s (s.setValues out)
  | c93Seq {base len out s} (hfit : out.length ≤ vbufSize) : Writes (.c93Seq base len) s (s.setValues out)
  | upceExp {base len out s} (hfit : out.length ≤ vbufSize) : Writes (.upceExp base len) s (s.setValues out)
  | rsGen {n s} (hn : ¬(n.toNat = 0 ∨ unitConfig.rsNMax < n.toNat)) :
      Writes (.rsGen n) s (s.setGenerator n (generatorPoly s.mul (expAt s.expRom) n.toNat))
  | rsClr {rem s} (hlen : rem.length = s.rsN.toNat) : Writes .rsClr s (s.setRemainder rem)
  | rsFeed {d rem s} (hlen : rem.length = s.rsN.toNat) : Writes (.rsFeed d) s (s.setRemainder rem)
  | rsEnc {base len rem s} (hlen : rem.length = s.rsN.toNat) : Writes (.rsEnc base len) s (s.setRemainder rem)
  | matInit {v s} (hv : ¬(v.toNat < 1 ∨ 40 < v.toNat)) : Writes (.matInit v) s (s.initMatrix v)
  | matWr {row col z s} (hcell : s.cellOk row col) :
      Writes (.matWr row col z) s (s.writeCell row.toNat col.toNat (cellOfBits z))
  | maskApply {id s} (hset : ¬s.dataUnset = true) :
      Writes (.maskApply id) s (s.setMatrix (maskSquare (unitConfig.maskPred id) s.side s.mat))
  | penScore {rows s} (hver : s.matVer ≠ 0) (hset : ¬(s.square.any fun row => row.any fun x => x.st == .unset) = true)
      (hrows : rows = darkRows s.square) :
      Writes .penScore s (s.setPenalty (penaltyA rows) (penaltyB rows) (penaltyC unitConfig rows) (penaltyD rows))
  | bestClr {s} : Writes .bestClr s s.clearBest
  | bestUpd {id s} : Writes (.bestUpd id) s (s.recordBest id)

/-- The result is one response, given on what the command may write. -/
def RespondsAfter (i : Instr) (s : State) (x : Result) : Prop := ∃ u r, Writes i s u ∧ x = .next (u.emit r)

section
variable {i : Instr} {s : State}

theorem respondsAfter_write {u : State} {v : Word} (h : Writes i s u) : RespondsAfter i s (respond u v) :=
  ⟨u, _, h, rfl⟩

theorem respondsAfter_read {v : Word} : RespondsAfter i s (respond s v) := respondsAfter_write .nothing

theorem respondsAfter_fail {c : FailCode} : RespondsAfter i s (fail s c) := ⟨s, _, .nothing, rfl⟩

theorem respondsAfter_ite {p : Prop} [Decidable p] {x y : Result} (hx : p → RespondsAfter i s x)
    (hy : ¬p → RespondsAfter i s y) : RespondsAfter i s (if p then x else y) := by
  by_cases h : p
  · rw [if_pos h]
    exact hx h
  · rw [if_neg h]
    exact hy h

/-- A check before the rest of a command. -/
theorem respondsAfter_check {p : Prop} [Decidable p] {c : FailCode} {x : Result} (hx : ¬p → RespondsAfter i s x) :
    RespondsAfter i s (if p then fail s c else x) := respondsAfter_ite (fun _ => respondsAfter_fail) hx

theorem respondsAfter_checkExtent {base len : BitVec 12} {check : List Byte → Except FailCode Word} :
    RespondsAfter i s (checkExtent s base len check) := by
  rcases checkExtent_cases s base len check with ⟨-, h⟩ | ⟨-, e, -, h⟩ | ⟨-, v, -, h⟩ <;>
    exact ⟨s, _, .nothing, h⟩

theorem respondsAfter_checksumValues {top : Nat} {sum : List Nat → Nat} :
    RespondsAfter i s (checksumValues s top sum) := by
  rcases checksumValues_cases s top sum with ⟨-, h⟩ | ⟨-, -, h⟩ | ⟨-, -, h⟩ <;>
    exact ⟨s, _, .nothing, h⟩

theorem respondsAfter_sequenceExtent {base len : BitVec 12} {seq : List Byte → Except FailCode (List Byte)}
    (hw : ∀ out, seq (s.extentBytes base len) = .ok out → Writes i s (s.setValues out)) :
    RespondsAfter i s (sequenceExtent s base len seq) := by
  rcases sequenceExtent_cases s base len seq with ⟨-, h⟩ | ⟨-, e, -, h⟩ | ⟨-, out, hout, h⟩
  · exact ⟨s, _, .nothing, h⟩
  · exact ⟨s, _, .nothing, h⟩
  · exact ⟨s.setValues out, _, hw out hout, h⟩

end

theorem upceExp_respondsAfter (base len : BitVec 12) (s : State) :
    RespondsAfter (.upceExp base len) s (execUpceExp base len s) := by
  unfold execUpceExp upceExpWith
  split
  · exact respondsAfter_fail
  · split
    · exact respondsAfter_fail
    · exact respondsAfter_write (.upceExp (upceDigits_length _))

theorem rsEnc_respondsAfter (base len : BitVec 12) (s : State) :
    RespondsAfter (.rsEnc base len) s (execRsEnc base len s) := by
  refine respondsAfter_check fun _ => ?_
  split
  · exact respondsAfter_fail
  · refine respondsAfter_write (.rsEnc ?_)
    rw [foldl_feedRound_length _ _ _ _ (by simp [generator_length]), List.length_replicate]

theorem bestUpd_respondsAfter (id : BitVec 3) (s : State) : RespondsAfter (.bestUpd id) s (execBestUpd id s) := by
  refine respondsAfter_check fun _ => respondsAfter_write ?_
  rcases s.offerBest_cases id with ⟨h, -⟩ | ⟨h, -⟩ <;> rw [h]
  · exact .bestUpd
  · exact .nothing

/-- A 12-bit extent has at most 4095 bytes. -/
theorem extentBytes_length_lt (s : State) (base len : BitVec 12) : (s.extentBytes base len).length < vbufSize := by
  rw [extentBytes_length]
  exact len.isLt

/-- Every command responds once, on what `Writes` says. -/
theorem exec_respondsAfter (i : Instr) (s : State) : RespondsAfter i s (exec i s) := by
  cases i with
  | nop | gfMul | bchFmt | maskBit => exact respondsAfter_read
  | gfExp | gfLog | bchVer | parEan13 | parUpce | dRd | vRd => exact respondsAfter_check fun _ => respondsAfter_read
  | rsRd | rsGrd => exact respondsAfter_check fun _ => respondsAfter_check fun _ => respondsAfter_read
  | csrRd =>
    exact respondsAfter_check fun _ => respondsAfter_check fun _ => respondsAfter_check fun _ => respondsAfter_read
  | matRd =>
    exact respondsAfter_check fun _ => respondsAfter_ite (fun _ => respondsAfter_read) fun _ => respondsAfter_fail
  | c128Chk | m10Chk | c93Chk => exact respondsAfter_checksumValues
  | valC128 | valEan13 | valEan8 | valUpca | valUpce | valC39 | valItf | valCbar | valC93 =>
    exact respondsAfter_checkExtent
  | srst => exact respondsAfter_write .srst
  | dClr => exact respondsAfter_write .dClr
  | dPush => exact respondsAfter_check fun h => respondsAfter_write (.dPush h)
  | vClr => exact respondsAfter_write .vClr
  | vPush => exact respondsAfter_check fun h => respondsAfter_write (.vPush h)
  | c128Seq base len =>
    exact respondsAfter_sequenceExtent fun out h =>
      .c128Seq (Nat.le_trans (sequence128_length h) (extentBytes_length_lt s base len))
  | c93Seq base len =>
    exact respondsAfter_sequenceExtent fun out h =>
      .c93Seq (sequence93_length h ▸ Nat.le_of_lt (extentBytes_length_lt s base len))
  | upceExp base len => exact upceExp_respondsAfter base len s
  | rsGen => exact respondsAfter_check fun h => respondsAfter_write (.rsGen h)
  | rsClr => exact respondsAfter_check fun _ => respondsAfter_write (.rsClr List.length_replicate)
  | rsFeed d =>
    refine respondsAfter_check fun _ => respondsAfter_write (.rsFeed ?_)
    rw [feedRound_length _ _ _ _ (by rw [generator_length, remainder_length]), remainder_length]
  | rsEnc base len => exact rsEnc_respondsAfter base len s
  | matInit => exact respondsAfter_check fun h => respondsAfter_write (.matInit h)
  | matWr =>
    exact respondsAfter_check fun _ =>
      respondsAfter_ite (fun h => respondsAfter_write (.matWr h)) fun _ => respondsAfter_fail
  | maskApply =>
    exact respondsAfter_check fun _ => respondsAfter_check fun h => respondsAfter_write (.maskApply h)
  | penScore =>
    exact respondsAfter_check fun hver => respondsAfter_check fun hset =>
      respondsAfter_write (.penScore hver hset rfl)
  | bestClr => exact respondsAfter_write .bestClr
  | bestUpd id => exact bestUpd_respondsAfter id s

/-- What a command leaves is what it may write, with one response given. -/
theorem writes_of_exec {i : Instr} {s t : State} (h : exec i s = .next t) : ∃ u r, Writes i s u ∧ t = u.emit r := by
  obtain ⟨u, r, hw, hx⟩ := exec_respondsAfter i s
  rw [h] at hx
  injection hx with hx
  exact ⟨u, r, hw, hx⟩

/-- Settles O10: each of the writes of `Writes` is one named state change, whose fields are known by definition. -/
theorem stateIsWrittenOnlyByItsOwners : Obligations.StateIsWrittenOnlyByItsOwners := by
  intro i s t h
  obtain ⟨u, r, hw, rfl⟩ := writes_of_exec h
  cases hw with
  | nothing => cases i <;> simp
  | _ => simp

/-! ## What a step can do -/

/-- A property that a hardware reset gives and that taking an input, every write and every response keep, is kept by
every step. -/
theorem step_keeps {P : State → Prop} (hreset : ∀ s : State, P s.hardReset)
    (hinputs : ∀ s rest, P s → P (s.withInputs rest))
    (hwrites : ∀ {i s u}, Writes i s u → P s → P u) (hemit : ∀ s r, P s → P (s.emit r)) {s t : State} (hs : P s)
    (h : step s = .next t) : P t := by
  cases hin : s.inputs with
  | nil =>
    rw [step_idle s hin] at h
    cases h
    exact hs
  | cons input rest =>
    cases input with
    | hardReset abandoned =>
      rw [step_hardReset s abandoned rest hin] at h
      cases h
      exact hreset _
    | command w =>
      have hstep : step s = acceptWord w (s.withInputs rest) := by simp [step, takeInput, hin]
      rw [hstep] at h
      cases hdec : decode w with
      | error e =>
        rw [acceptWord_error _ hdec] at h
        cases h
        exact hemit _ _ (hinputs s rest hs)
      | ok i =>
        rw [acceptWord_ok _ hdec] at h
        obtain ⟨u, r, hw, rfl⟩ := writes_of_exec h
        exact hemit u r (hwrites hw (hinputs s rest hs))

end Sys2Proof.Proofs
end

section
/-! PROOFS. The invariants of Safety.lean: at reset, and kept by every step. -/

namespace Sys2Proof.Proofs

open Sys2Proof.Machine Sys2Proof.Claims

/-! ## Reset -/

theorem inv_reset : State.reset.Inv := by
  constructor <;> simp [State.reset, State.romOk, Memory.wf]

theorem genInv_of_rsN_zero {s : State} (h : s.rsN = 0) : s.GenInv := fun hn => absurd h hn

theorem penInv_of_not_penValid {s : State} (h : s.penValid = false) : s.PenInv := fun hv => by simp [h] at hv

/-- Settles O13: the memories are empty, the counts 0 and the score not valid. -/
theorem resetMeetsTheInvariants : Obligations.ResetMeetsTheInvariants :=
  ⟨inv_reset, genInv_of_rsN_zero rfl, penInv_of_not_penValid rfl⟩

/-- `LOG` undoes `EXP` (40 R119). -/
theorem logAt_expAt : ∀ i, i < 255 → (logAt logTable (expAt expTable i)).toNat = i := by
  decide +kernel

/-- Settles O17: the ROM tables hold the powers of α (`expAt_eq_alphaPow`) and their exponents. -/
theorem resetValues : Obligations.ResetValues := by
  refine ⟨rfl, rfl, rfl, rfl, rfl, rfl, by decide +kernel, fun i hi => expAt_eq_alphaPow hi, by decide +kernel,
    fun i hi => ?_, rfl, rfl⟩
  rw [← expAt_eq_alphaPow hi]
  exact logAt_expAt i hi

/-! ## The shape of the state -/

theorem inv_pushData {s : State} (h : s.Inv) (b : Byte) (hroom : s.dlen.toNat ≠ dbufSize) : (s.pushData b).Inv :=
  have hlt : s.dlen.toNat < dbufSize := Nat.lt_of_le_of_ne h.dlen_le hroom
  { h with
    dbuf_wf := writeMem_wf _ _ _ _ h.dbuf_wf
    dbuf_within := writeMem_within _ _ _ _ _ hlt h.dbuf_within
    dlen_le := by simp only [dbufSize, State.pushData_dlen] at *; bv_omega }

theorem inv_pushValue {s : State} (h : s.Inv) (b : Byte) (hroom : s.vlen.toNat ≠ vbufSize) : (s.pushValue b).Inv :=
  have hlt : s.vlen.toNat < vbufSize := Nat.lt_of_le_of_ne h.vlen_le hroom
  { h with
    vbuf_wf := writeMem_wf _ _ _ _ h.vbuf_wf
    vbuf_within := writeMem_within _ _ _ _ _ hlt h.vbuf_within
    vlen_le := by simp only [vbufSize, State.pushValue_vlen] at *; bv_omega }

theorem inv_setValues {s : State} (h : s.Inv) {out : List Byte} (hfit : out.length ≤ vbufSize) :
    (s.setValues out).Inv :=
  { h with
    vbuf_wf := writeSeq_wf _ _ _ _ h.vbuf_wf
    vbuf_within := writeSeq_within _ _ _ _ _ (by omega) h.vbuf_within
    vlen_le := Nat.le_trans (Nat.mod_le _ _) hfit }

theorem inv_setGenerator {s : State} (h : s.Inv) {n : Byte} {g : List Byte} (hn : n.toNat ≤ unitConfig.rsNMax)
    (hg : g.length = n.toNat + 1) : (s.setGenerator n g).Inv :=
  { h with
    rsN_le := hn
    rsGen_wf := writeSeq_wf _ _ _ _ h.rsGen_wf
    rsGen_within := writeSeq_within _ _ _ _ _ (by omega) h.rsGen_within
    rsRem_wf := writeSeq_wf _ _ _ _ h.rsRem_wf
    rsRem_within := writeSeq_within _ _ _ _ _ (by simpa using hn) h.rsRem_within }

theorem inv_setRemainder {s : State} (h : s.Inv) {rem : List Byte} (hlen : rem.length = s.rsN.toNat) :
    (s.setRemainder rem).Inv :=
  { h with
    rsRem_wf := writeSeq_wf _ _ _ _ h.rsRem_wf
    rsRem_within := writeSeq_within _ _ _ _ _ (by simpa [hlen] using h.rsN_le) h.rsRem_within }

theorem inv_initMatrix {s : State} (h : s.Inv) {v : BitVec 6} (hv : v.toNat ≤ 40) : (s.initMatrix v).Inv :=
  { h with
    matVer_le := hv
    mat_wf := filter_wf _ _ _ h.mat_wf
    mat_within := fun x hx => h.mat_within x (List.mem_of_mem_filter hx)
    mat_set := fun x hx => h.mat_set x (List.mem_of_mem_filter hx) }

/-- `MAT.WR` writes no cell that is unset (46 R232). -/
theorem cellOfBits_set (z : BitVec 2) : (cellOfBits z).st ≠ .unset := by
  unfold cellOfBits
  split <;> simp

/-- A cell of the square has its place in the matrix memory. -/
theorem cellKey_lt {r c : Nat} (hr : r < matMax) (hc : c < matMax) : cellKey r c < matMax * matMax := by
  simp only [cellKey, matMax] at *
  omega

theorem side_le {s : State} (h : s.Inv) : s.side ≤ matMax := sideOf_le h.matVer_le

theorem inv_writeCell {s : State} (h : s.Inv) {row col : Byte} {x : MatCell} (hcell : s.cellOk row col)
    (hx : x.st ≠ .unset) : (s.writeCell row.toNat col.toNat x).Inv :=
  have hkey := cellKey_lt (Nat.lt_of_lt_of_le hcell.1 (side_le h)) (Nat.lt_of_lt_of_le hcell.2 (side_le h))
  { h with
    mat_wf := writeMem_wf _ _ _ _ h.mat_wf
    mat_within := writeMem_within _ _ _ _ _ hkey h.mat_within
    mat_set := fun y hy => by
      rcases mem_writeMem _ _ _ _ y hy with ⟨rfl, -⟩ | hy
      · exact hx
      · exact h.mat_set y hy }

/-- A mask sets the colour of every cell that it changes (46 R238). -/
theorem flipCell_set (x : MatCell) : (flipCell x).st ≠ .unset := by
  unfold flipCell
  dsimp only
  split <;> simp

theorem ne_blankCell_of_set {x : MatCell} (h : x.st ≠ .unset) : x ≠ blankCell := fun hx => h (hx ▸ rfl)

/-- What a mask over the square of side `n` makes of the cell with key `k` (46 R238). -/
def maskCell (pred : Nat → Nat → Bool) (n k : Nat) (x : MatCell) : MatCell :=
  if k / matMax < n && k % matMax < n && masked pred (k / matMax) (k % matMax) x then flipCell x else x

theorem maskSquare_eq_map (pred : Nat → Nat → Bool) (n : Nat) (m : Memory MatCell) :
    maskSquare pred n m = m.map fun x => (x.1, maskCell pred n x.1 x.2) := rfl

theorem maskCell_set (pred : Nat → Nat → Bool) (n k : Nat) {x : MatCell} (h : x.st ≠ .unset) :
    (maskCell pred n k x).st ≠ .unset := by
  unfold maskCell
  split
  · exact flipCell_set x
  · exact h

theorem inv_setMatrix_maskSquare {s : State} (h : s.Inv) (pred : Nat → Nat → Bool) (n : Nat) :
    (s.setMatrix (maskSquare pred n s.mat)).Inv := by
  rw [maskSquare_eq_map]
  exact { h with
    mat_wf := map_wf _ _ _ h.mat_wf fun x hx => ne_blankCell_of_set (maskCell_set pred n x.1 (h.mat_set x hx))
    mat_within := fun x hx => by
      obtain ⟨y, hy, rfl⟩ := List.mem_map.1 hx
      exact h.mat_within y hy
    mat_set := fun x hx => by
      obtain ⟨y, hy, rfl⟩ := List.mem_map.1 hx
      exact maskCell_set pred n y.1 (h.mat_set y hy) }

theorem inv_writes {i : Instr} {s u : State} (hw : Writes i s u) (h : s.Inv) : u.Inv := by
  cases hw with
  | nothing => exact h
  | srst =>
    exact { h with
      dlen_le := Nat.zero_le _, vlen_le := Nat.zero_le _, rsN_le := Nat.zero_le _, matVer_le := Nat.zero_le _ }
  | dClr => exact { h with dlen_le := Nat.zero_le _ }
  | dPush hroom => exact inv_pushData h _ hroom
  | vClr => exact { h with vlen_le := Nat.zero_le _ }
  | vPush hroom => exact inv_pushValue h _ hroom
  | c128Seq hfit | c93Seq hfit | upceExp hfit => exact inv_setValues h hfit
  | rsGen hn => exact inv_setGenerator h (by omega) (generatorPoly_length _ _ _)
  | rsClr hlen | rsFeed hlen | rsEnc hlen => exact inv_setRemainder h hlen
  | matInit hv => exact inv_initMatrix h (by omega)
  | matWr hcell => exact inv_writeCell h hcell (cellOfBits_set _)
  | maskApply => exact inv_setMatrix_maskSquare h _ _
  | penScore | bestClr | bestUpd => exact { h with }

/-- Settles O14: the reset state meets the invariant and every write keeps it. -/
theorem stepKeepsTheStateInvariant : Obligations.StepKeepsTheStateInvariant := fun _ _ hs h =>
  step_keeps (P := State.Inv) (fun _ => { inv_reset with }) (fun _ _ hs => { hs with }) inv_writes
    (fun _ _ hs => { hs with }) hs h

/-! ## The generator -/

theorem genInv_setGenerator {s : State} (h : s.Inv) (n : Byte) :
    (s.setGenerator n (generatorPoly s.mul (expAt s.expRom) n.toNat)).GenInv := by
  intro _
  rw [setGenerator_generator s n _ h.rsGen_wf (generatorPoly_length _ _ _), mul_of_romOk h.rom, h.rom.1,
    State.setGenerator_rsN]

theorem genInv_writes {i : Instr} {s u : State} (hw : Writes i s u) (hs : s.Inv) (h : s.GenInv) : u.GenInv := by
  cases hw with
  | srst => exact genInv_of_rsN_zero rfl
  | rsGen => exact genInv_setGenerator hs _
  | _ => exact h

/-- Settles O15: `RS.GEN` alone writes the generator, and a reset leaves none. -/
theorem stepKeepsTheGenerator : Obligations.StepKeepsTheGenerator := fun _ _ hs hg h =>
  (step_keeps (P := fun s => s.Inv ∧ s.GenInv) (fun _ => ⟨{ inv_reset with }, genInv_of_rsN_zero rfl⟩)
    (fun _ _ hs => ⟨{ hs.1 with }, hs.2⟩) (fun hw hs => ⟨inv_writes hw hs.1, genInv_writes hw hs.1 hs.2⟩)
    (fun _ _ hs => ⟨{ hs.1 with }, hs.2⟩) ⟨hs, hg⟩ h).2

/-! ## The score -/

theorem square_set_iff (s : State) :
    ¬(s.square.any fun row => row.any fun x => x.st == .unset) = true ↔ ∀ row ∈ s.square, ∀ x ∈ row, x.st ≠ .unset := by
  simp

/-- `PEN.SCORE` makes the score valid, and it is the score of the square that stands (46 R246). -/
theorem penInv_setPenalty {s : State} {rows : List (List Bool)} (hver : s.matVer ≠ 0)
    (hset : ∀ row ∈ s.square, ∀ x ∈ row, x.st ≠ .unset) (hrows : rows = darkRows s.square) :
    (s.setPenalty (penaltyA rows) (penaltyB rows) (penaltyC unitConfig rows) (penaltyD rows)).PenInv := by
  subst hrows
  refine fun _ => ⟨hver, hset, rfl, rfl, rfl, rfl, ?_⟩
  simp only [State.setPenalty_penTotal, State.setPenalty_penA, State.setPenalty_penB, State.setPenalty_penC,
    State.setPenalty_penD, natWord, BitVec.ofNat_add]

theorem penInv_writes {i : Instr} {s u : State} (hw : Writes i s u) (h : s.PenInv) : u.PenInv := by
  cases hw with
  | srst | matInit | matWr | maskApply => exact penInv_of_not_penValid rfl
  | penScore hver hset hrows => exact penInv_setPenalty hver ((square_set_iff s).1 hset) hrows
  | _ => exact h

/-- Settles O16: whatever writes the matrix clears `PEN_VALID` (10 R42), and `PEN.SCORE` sets it with the scores of the
square. -/
theorem stepKeepsValidScoresCurrent : Obligations.StepKeepsValidScoresCurrent := fun _ _ hs h =>
  step_keeps (P := State.PenInv) (fun _ => penInv_of_not_penValid rfl) (fun _ _ hs => hs) penInv_writes
    (fun _ _ hs => hs) hs h

end Sys2Proof.Proofs
end

section
/-! PROOFS. What a command observes (10 R50): two states that agree on the contents give one answer to every word, and
agree again after it. -/

namespace Sys2Proof.Proofs

open Sys2Proof.Machine Sys2Proof.Claims

/-! ## What states that agree have in common -/

theorem mem_coords {n : Nat} {p : Nat × Nat} : p ∈ coords n ↔ p.1 < n ∧ p.2 < n := by
  obtain ⟨r, c⟩ := p
  simp [coords]

section
variable {s t : State}

theorem obsEq_mul (h : s.ObsEq t) : s.mul = t.mul := by
  funext a b
  rw [State.mul, State.mul, h.rom.1, h.rom.2]

theorem obsEq_extentOk (h : s.ObsEq t) (base len : BitVec 12) : s.extentOk base len ↔ t.extentOk base len := by
  rw [State.extentOk, State.extentOk, h.dlen]

theorem obsEq_extent (h : s.ObsEq t) (base len : BitVec 12) : extent s base len = extent t base len := by
  by_cases hs : s.extentOk base len
  · have ht := (obsEq_extentOk h base len).1 hs
    rw [extent_ok hs, extent_ok ht]
    exact congrArg Except.ok (readSeq_congr _ _ _ _ _ fun k hk => h.data _ (by omega))
  · have ht := (obsEq_extentOk h base len).not.1 hs
    rw [extent_error hs, extent_error ht]

theorem obsEq_values (h : s.ObsEq t) : s.values = t.values := by
  rw [State.values, State.values, ← h.vlen]
  exact readSeq_congr _ _ _ _ _ fun k hk => h.value _ (by omega)

theorem obsEq_generator (h : s.ObsEq t) (hn : s.rsN ≠ 0) : s.generator = t.generator := by
  rw [State.generator, State.generator, ← h.rsN]
  exact readSeq_congr _ _ _ _ _ fun k hk => h.gen hn _ (by omega)

theorem obsEq_remainder (h : s.ObsEq t) : s.remainder = t.remainder := by
  rw [State.remainder, State.remainder, ← h.rsN]
  exact readSeq_congr _ _ _ _ _ fun k hk => h.rem _ (by omega)

theorem obsEq_side (h : s.ObsEq t) : s.side = t.side := congrArg sideOf h.matVer

theorem obsEq_cellOk (h : s.ObsEq t) (row col : Byte) : s.cellOk row col ↔ t.cellOk row col := by
  rw [State.cellOk, State.cellOk, obsEq_side h]

theorem obsEq_square (h : s.ObsEq t) : s.square = t.square := by
  rw [State.square, State.square, ← obsEq_side h]
  refine List.map_congr_left fun r hr => List.map_congr_left fun c hc => ?_
  exact h.cell r c (List.mem_range.1 hr) (List.mem_range.1 hc)

theorem obsEq_cell (h : s.ObsEq t) {p : Nat × Nat} (hp : p ∈ coords s.side) : s.cell p.1 p.2 = t.cell p.1 p.2 :=
  h.cell _ _ (mem_coords.1 hp).1 (mem_coords.1 hp).2

theorem obsEq_dataUnset (h : s.ObsEq t) : s.dataUnset = t.dataUnset := by
  rw [State.dataUnset, State.dataUnset, ← obsEq_side h]
  rw [Bool.eq_iff_iff, List.any_eq_true, List.any_eq_true]
  refine exists_congr fun p => and_congr_right fun hp => ?_
  rw [obsEq_cell h hp]

theorem obsEq_maskCount (h : s.ObsEq t) (pred : Nat → Nat → Bool) : s.maskCount pred = t.maskCount pred := by
  rw [State.maskCount, State.maskCount, ← obsEq_side h]
  refine List.countP_congr fun p hp => ?_
  rw [obsEq_cell h hp]

theorem obsEq_flags (h : s.ObsEq t) : s.flags = t.flags := by
  simp only [State.flags, State.matValid, State.rsValid, h.rsN, h.matVer, h.penValid, h.bestValid]

/-- The registers that `CSR.RD` may read (47 R268). -/
theorem obsEq_csr (h : s.ObsEq t) (n : Nat) (hpen : 5 ≤ n → n ≤ 9 → s.penValid = true)
    (hbest : n = 10 ∨ n = 11 → s.bestValid = true) : s.csr n = t.csr n := by
  by_cases hp : 5 ≤ n ∧ n ≤ 9
  · obtain ⟨hA, hB, hC, hD, hT⟩ := h.pen (hpen hp.1 hp.2)
    obtain rfl | rfl | rfl | rfl | rfl : n = 5 ∨ n = 6 ∨ n = 7 ∨ n = 8 ∨ n = 9 := by omega
    · exact hA
    · exact hB
    · exact hC
    · exact hD
    · exact hT
  · by_cases hb : n = 10 ∨ n = 11
    · obtain ⟨hId, hPen⟩ := h.best (hbest hb)
      rcases hb with rfl | rfl
      · exact congrArg zext32 hId
      · exact hPen
    · unfold State.csr
      split
      · rw [h.dlen]
      · rw [h.vlen]
      · rw [h.rsN]
      · rw [h.matVer]
      · rw [obsEq_side h]
      case h_13 => exact obsEq_flags h
      case h_14 => rfl
      all_goals omega

/-! ## The named state changes keep the agreement -/

theorem obsEq_pushData (h : s.ObsEq t) (hs : s.Inv) (ht : t.Inv) (b : Byte) : (s.pushData b).ObsEq (t.pushData b) :=
  { h with
    dlen := by rw [State.pushData_dlen, State.pushData_dlen, h.dlen]
    data := fun i hi => by
      rw [pushData_dataAt s b i hs.dbuf_wf, pushData_dataAt t b i ht.dbuf_wf, ← h.dlen]
      split
      · rfl
      · refine h.data i ?_
        rw [State.pushData_dlen] at hi
        bv_omega }

theorem obsEq_pushValue (h : s.ObsEq t) (hs : s.Inv) (ht : t.Inv) (b : Byte) :
    (s.pushValue b).ObsEq (t.pushValue b) :=
  { h with
    vlen := by rw [State.pushValue_vlen, State.pushValue_vlen, h.vlen]
    value := fun i hi => by
      rw [pushValue_valueAt s b i hs.vbuf_wf, pushValue_valueAt t b i ht.vbuf_wf, ← h.vlen]
      split
      · rfl
      · refine h.value i ?_
        rw [State.pushValue_vlen] at hi
        bv_omega }

theorem obsEq_setValues (h : s.ObsEq t) (hs : s.Inv) (ht : t.Inv) (out : List Byte) :
    (s.setValues out).ObsEq (t.setValues out) :=
  { h with
    vlen := rfl
    value := fun i hi => by
      have hlt : i < out.length := Nat.lt_of_lt_of_le hi (Nat.mod_le _ _)
      rw [setValues_valueAt s out i hs.vbuf_wf, setValues_valueAt t out i ht.vbuf_wf, if_pos hlt, if_pos hlt] }

theorem obsEq_setGenerator (h : s.ObsEq t) (hs : s.Inv) (ht : t.Inv) {n : Byte} {g : List Byte}
    (hg : g.length = n.toNat + 1) : (s.setGenerator n g).ObsEq (t.setGenerator n g) :=
  { h with
    rsN := rfl
    gen := fun _ i hi => by
      have hlt : i < g.length := hg ▸ Nat.lt_succ_of_le hi
      rw [setGenerator_genAt s n g i hs.rsGen_wf, setGenerator_genAt t n g i ht.rsGen_wf, if_pos hlt, if_pos hlt]
    rem := fun i hi => by
      rw [State.setGenerator_rsN] at hi
      rw [setGenerator_remAt s n g i hs.rsRem_wf, setGenerator_remAt t n g i ht.rsRem_wf, if_pos hi, if_pos hi] }

theorem obsEq_setRemainder (h : s.ObsEq t) (hs : s.Inv) (ht : t.Inv) {rem : List Byte}
    (hlen : rem.length = s.rsN.toNat) : (s.setRemainder rem).ObsEq (t.setRemainder rem) :=
  { h with
    rem := fun i hi => by
      have hlt : i < rem.length := hlen ▸ hi
      rw [setRemainder_remAt s rem i hs.rsRem_wf, setRemainder_remAt t rem i ht.rsRem_wf, if_pos hlt, if_pos hlt] }

theorem obsEq_initMatrix (h : s.ObsEq t) (hs : s.Inv) (ht : t.Inv) {v : BitVec 6} (hv : v.toNat ≤ 40) :
    (s.initMatrix v).ObsEq (t.initMatrix v) :=
  { h with
    matVer := rfl
    cell := fun r c (hr : r < sideOf v) (hc : c < sideOf v) => by
      have hmax : c < matMax := Nat.lt_of_lt_of_le hc (sideOf_le hv)
      rw [initMatrix_cell s v r c hs.mat_wf hmax, initMatrix_cell t v r c ht.mat_wf hmax, if_pos ⟨hr, hc⟩,
        if_pos ⟨hr, hc⟩]
    penValid := rfl
    pen := fun hv => nomatch hv
    bestValid := rfl
    best := fun hv => nomatch hv }

theorem obsEq_writeCell (h : s.ObsEq t) (hs : s.Inv) (ht : t.Inv) {row col : Byte} (hcell : s.cellOk row col)
    (x : MatCell) : (s.writeCell row.toNat col.toNat x).ObsEq (t.writeCell row.toNat col.toNat x) :=
  { h with
    cell := fun r c (hr : r < s.side) (hc : c < s.side) => by
      have hcol : col.toNat < matMax := Nat.lt_of_lt_of_le hcell.2 (side_le hs)
      have hmax : c < matMax := Nat.lt_of_lt_of_le hc (side_le hs)
      rw [writeCell_cell s _ _ x r c hs.mat_wf hcol hmax, writeCell_cell t _ _ x r c ht.mat_wf hcol hmax,
        h.cell r c hr hc]
    penValid := rfl
    pen := fun hv => nomatch hv }

/-- Where no unreserved cell of the square is unset (46 R238). -/
theorem cell_set_of_dataUnset (hset : s.dataUnset = false) {r c : Nat} (hr : r < s.side) (hc : c < s.side)
    (hrsv : (s.cell r c).rsv = false) : (s.cell r c).st ≠ .unset := by
  have hcell := List.any_eq_false.1 hset (r, c) (mem_coords.2 ⟨hr, hc⟩)
  simpa [hrsv] using hcell

theorem obsEq_setMatrix_maskSquare (h : s.ObsEq t) (hs : s.Inv) (hset : s.dataUnset = false)
    (pred : Nat → Nat → Bool) :
    (s.setMatrix (maskSquare pred s.side s.mat)).ObsEq (t.setMatrix (maskSquare pred t.side t.mat)) :=
  { h with
    cell := fun r c (hr : r < s.side) (hc : c < s.side) => by
      have hmax : c < matMax := Nat.lt_of_lt_of_le hc (side_le hs)
      have hset' : t.dataUnset = false := obsEq_dataUnset h ▸ hset
      rw [maskSquare_cell s pred s.side r c hmax (cell_set_of_dataUnset hset),
        maskSquare_cell t pred t.side r c hmax (cell_set_of_dataUnset hset'), ← obsEq_side h, h.cell r c hr hc]
    penValid := rfl
    pen := fun hv => nomatch hv }

theorem obsEq_setPenalty (h : s.ObsEq t) (a b c d : Nat) : (s.setPenalty a b c d).ObsEq (t.setPenalty a b c d) :=
  { h with
    penValid := rfl
    pen := fun _ => ⟨rfl, rfl, rfl, rfl, rfl⟩ }

theorem obsEq_softReset (h : s.ObsEq t) : s.softReset.ObsEq t.softReset :=
  { h with
    dlen := rfl
    data := fun i hi => absurd hi (Nat.not_lt_zero i)
    vlen := rfl
    value := fun i hi => absurd hi (Nat.not_lt_zero i)
    rsN := rfl
    gen := fun hn => absurd rfl hn
    rem := fun i hi => absurd hi (Nat.not_lt_zero i)
    matVer := rfl
    cell := fun r _ hr => absurd hr (Nat.not_lt_zero r)
    penValid := rfl
    pen := fun hv => nomatch hv
    bestValid := rfl
    best := fun hv => nomatch hv }

theorem obsEq_clearData (h : s.ObsEq t) : s.clearData.ObsEq t.clearData :=
  { h with
    dlen := rfl
    data := fun i hi => absurd hi (Nat.not_lt_zero i) }

theorem obsEq_clearValues (h : s.ObsEq t) : s.clearValues.ObsEq t.clearValues :=
  { h with
    vlen := rfl
    value := fun i hi => absurd hi (Nat.not_lt_zero i) }

theorem obsEq_clearBest (h : s.ObsEq t) : s.clearBest.ObsEq t.clearBest :=
  { h with
    bestValid := rfl
    best := fun hv => nomatch hv }

/-- An offer on a valid score: the comparison reads what agrees (46 R251). -/
theorem obsEq_offerBest (h : s.ObsEq t) (hpen : s.penValid = true) (id : BitVec 3) :
    (s.offerBest id).ObsEq (t.offerBest id) ∧ (s.offerBest id).bestId = (t.offerBest id).bestId := by
  obtain ⟨-, -, -, -, hT⟩ := h.pen hpen
  have hcond : (s.bestValid = false ∨ s.penTotal.toNat < s.bestPen.toNat) ↔
      (t.bestValid = false ∨ t.penTotal.toNat < t.bestPen.toNat) := by
    rw [hT, ← h.bestValid]
    cases hb : s.bestValid
    · simp
    · rw [(h.best hb).2]
  rcases s.offerBest_cases id with ⟨hs, hc⟩ | ⟨hs, hb, hle⟩
  · rw [hs, State.offerBest, if_pos (hcond.1 hc)]
    exact ⟨{ h with bestValid := rfl, best := fun _ => ⟨rfl, hT⟩ }, rfl⟩
  · have hnot : ¬(s.bestValid = false ∨ s.penTotal.toNat < s.bestPen.toNat) := by simp [hb, hle]
    rw [hs, State.offerBest, if_neg (hcond.not.1 hnot)]
    exact ⟨h, (h.best hb).1⟩

/-! ## One answer from two states -/

/-- The two results are one response, given in states that agree. -/
def SameAnswer (s t : State) (x y : Result) : Prop :=
  ∃ s' t' r, x = .next s' ∧ y = .next t' ∧ s.answered s' r ∧ t.answered t' r ∧ s'.ObsEq t'

/-- A response on states that agree again, the fields of the run being as they were. -/
theorem sameAnswer_respond {u w : State} {v v' : Word} (h : u.ObsEq w) (hv : v = v')
    (hu : u.inputs = s.inputs ∧ u.responses = s.responses := by exact ⟨rfl, rfl⟩)
    (hw : w.inputs = t.inputs ∧ w.responses = t.responses := by exact ⟨rfl, rfl⟩) :
    SameAnswer s t (respond u v) (respond w v') := by
  subst hv
  exact ⟨u.emit (.ok v), w.emit (.ok v), .ok v, rfl, rfl, ⟨congrArg _ hu.2, hu.1⟩, ⟨congrArg _ hw.2, hw.1⟩, { h with }⟩

theorem sameAnswer_read {v v' : Word} (h : s.ObsEq t) (hv : v = v') : SameAnswer s t (respond s v) (respond t v') :=
  sameAnswer_respond h hv

theorem sameAnswer_fail (h : s.ObsEq t) (c : FailCode) : SameAnswer s t (fail s c) (fail t c) :=
  ⟨s.emit (.fail c), t.emit (.fail c), .fail c, rfl, rfl, ⟨rfl, rfl⟩, ⟨rfl, rfl⟩, { h with }⟩

theorem sameAnswer_ite {p q : Prop} [Decidable p] [Decidable q] {x y x' y' : Result} (hpq : p ↔ q)
    (hx : p → SameAnswer s t x x') (hy : ¬p → SameAnswer s t y y') :
    SameAnswer s t (if p then x else y) (if q then x' else y') := by
  by_cases hp : p
  · rw [if_pos hp, if_pos (hpq.1 hp)]
    exact hx hp
  · rw [if_neg hp, if_neg (hpq.not.1 hp)]
    exact hy hp

/-- A check that comes out the same in both states, before the rest of a command. -/
theorem sameAnswer_check (h : s.ObsEq t) {p q : Prop} [Decidable p] [Decidable q] {c : FailCode} {x y : Result}
    (hpq : p ↔ q) (hx : ¬p → SameAnswer s t x y) :
    SameAnswer s t (if p then fail s c else x) (if q then fail t c else y) :=
  sameAnswer_ite hpq (fun _ => sameAnswer_fail h c) hx

theorem sameAnswer_checkExtent (h : s.ObsEq t) (base len : BitVec 12) (check : List Byte → Except FailCode Word) :
    SameAnswer s t (checkExtent s base len check) (checkExtent t base len check) := by
  unfold checkExtent
  rw [obsEq_extent h]
  split
  · exact sameAnswer_fail h _
  · split
    · exact sameAnswer_fail h _
    · exact sameAnswer_read h rfl

theorem sameAnswer_sequenceExtent (h : s.ObsEq t) (hs : s.Inv) (ht : t.Inv) (base len : BitVec 12)
    (seq : List Byte → Except FailCode (List Byte)) :
    SameAnswer s t (sequenceExtent s base len seq) (sequenceExtent t base len seq) := by
  unfold sequenceExtent
  rw [obsEq_extent h]
  split
  · exact sameAnswer_fail h _
  · split
    · exact sameAnswer_fail h _
    · exact sameAnswer_respond (obsEq_setValues h hs ht _) rfl

theorem sameAnswer_checksumValues (h : s.ObsEq t) (top : Nat) (sum : List Nat → Nat) :
    SameAnswer s t (checksumValues s top sum) (checksumValues t top sum) := by
  unfold checksumValues
  rw [obsEq_values h]
  refine sameAnswer_check h (by rw [h.vlen]) fun _ => ?_
  exact sameAnswer_check h Iff.rfl fun _ => sameAnswer_read h rfl

/-! ## The commands -/

theorem upceExp_sameAnswer (h : s.ObsEq t) (hs : s.Inv) (ht : t.Inv) (base len : BitVec 12) :
    SameAnswer s t (execUpceExp base len s) (execUpceExp base len t) := by
  unfold execUpceExp upceExpWith
  rw [obsEq_extent h]
  split
  · exact sameAnswer_fail h _
  · split
    · exact sameAnswer_fail h _
    · exact sameAnswer_respond (obsEq_setValues h hs ht _) rfl

theorem rsGen_sameAnswer (h : s.ObsEq t) (hs : s.Inv) (ht : t.Inv) (n : Byte) :
    SameAnswer s t (execRsGen n s) (execRsGen n t) := by
  refine sameAnswer_check h Iff.rfl fun _ => ?_
  rw [obsEq_mul h, h.rom.1]
  exact sameAnswer_respond (obsEq_setGenerator h hs ht (generatorPoly_length _ _ _)) rfl

theorem rsClr_sameAnswer (h : s.ObsEq t) (hs : s.Inv) (ht : t.Inv) :
    SameAnswer s t (execRsClr s) (execRsClr t) := by
  refine sameAnswer_check h (by rw [h.rsN]) fun _ => ?_
  rw [← h.rsN]
  exact sameAnswer_respond (obsEq_setRemainder h hs ht List.length_replicate) rfl

theorem rsFeed_sameAnswer (h : s.ObsEq t) (hs : s.Inv) (ht : t.Inv) (d : Byte) :
    SameAnswer s t (execRsFeed d s) (execRsFeed d t) := by
  refine sameAnswer_check h (by rw [h.rsN]) fun hn => ?_
  rw [← obsEq_mul h, ← obsEq_generator h hn, ← obsEq_remainder h]
  refine sameAnswer_respond (obsEq_setRemainder h hs ht ?_) rfl
  rw [feedRound_length _ _ _ _ (by rw [generator_length, remainder_length]), remainder_length]

theorem rsEnc_sameAnswer (h : s.ObsEq t) (hs : s.Inv) (ht : t.Inv) (base len : BitVec 12) :
    SameAnswer s t (execRsEnc base len s) (execRsEnc base len t) := by
  refine sameAnswer_check h (by rw [h.rsN]) fun hn => ?_
  rw [← obsEq_extent h, ← obsEq_mul h, ← obsEq_generator h hn, ← h.rsN]
  split
  · exact sameAnswer_fail h _
  · refine sameAnswer_respond (obsEq_setRemainder h hs ht ?_) rfl
    rw [foldl_feedRound_length _ _ _ _ (by simp [generator_length]), List.length_replicate]

theorem csrRd_sameAnswer (h : s.ObsEq t) (idx : BitVec 12) :
    SameAnswer s t (execCsrRd idx s) (execCsrRd idx t) := by
  refine sameAnswer_check h Iff.rfl fun _ => sameAnswer_check h (by rw [h.penValid]) fun hp => ?_
  refine sameAnswer_check h (by rw [h.bestValid]) fun hb => sameAnswer_read h (obsEq_csr h _ ?_ fun hi => ?_)
  · exact fun h5 h9 => Bool.of_not_eq_false fun hv => hp ⟨h5, h9, hv⟩
  · exact Bool.of_not_eq_false fun hv => hb ⟨hi, hv⟩

theorem maskApply_sameAnswer (h : s.ObsEq t) (hs : s.Inv) (id : BitVec 3) :
    SameAnswer s t (execMaskApply id s) (execMaskApply id t) := by
  refine sameAnswer_check h (by rw [h.matVer]) fun _ => sameAnswer_check h (by rw [obsEq_dataUnset h]) fun hset => ?_
  exact sameAnswer_respond (obsEq_setMatrix_maskSquare h hs (Bool.of_not_eq_true hset) _)
    (congrArg natWord (obsEq_maskCount h _))

theorem penScore_sameAnswer (h : s.ObsEq t) : SameAnswer s t (execPenScore s) (execPenScore t) := by
  refine sameAnswer_check h (by rw [h.matVer]) fun _ => sameAnswer_check h (by rw [obsEq_square h]) fun _ => ?_
  rw [obsEq_square h]
  exact sameAnswer_respond (obsEq_setPenalty h _ _ _ _) rfl

theorem offerBest_run (s : State) (id : BitVec 3) :
    (s.offerBest id).inputs = s.inputs ∧ (s.offerBest id).responses = s.responses := by
  rcases s.offerBest_cases id with ⟨h, -⟩ | ⟨h, -⟩ <;> rw [h] <;> exact ⟨rfl, rfl⟩

theorem bestUpd_sameAnswer (h : s.ObsEq t) (id : BitVec 3) :
    SameAnswer s t (execBestUpd id s) (execBestUpd id t) := by
  refine sameAnswer_check h (by rw [h.penValid]) fun hp => ?_
  obtain ⟨hobs, hid⟩ := obsEq_offerBest h (Bool.of_not_eq_false hp) id
  exact sameAnswer_respond hobs (congrArg zext32 hid) (offerBest_run s id) (offerBest_run t id)

/-- Every command gives one answer in two states that agree. -/
theorem exec_sameAnswer (h : s.ObsEq t) (hs : s.Inv) (ht : t.Inv) (i : Instr) :
    SameAnswer s t (exec i s) (exec i t) := by
  have hN : s.rsN = 0 ↔ t.rsN = 0 := by rw [h.rsN]
  have hver : s.matVer = 0 ↔ t.matVer = 0 := by rw [h.matVer]
  cases i with
  | nop | bchFmt | maskBit => exact sameAnswer_read h rfl
  | bchVer | parEan13 | parUpce => exact sameAnswer_check h Iff.rfl fun _ => sameAnswer_read h rfl
  | gfMul => exact sameAnswer_read h (by rw [obsEq_mul h])
  | gfExp => exact sameAnswer_check h Iff.rfl fun _ => sameAnswer_read h (by rw [h.rom.1])
  | gfLog => exact sameAnswer_check h Iff.rfl fun _ => sameAnswer_read h (by rw [h.rom.2])
  | csrRd idx => exact csrRd_sameAnswer h idx
  | srst => exact sameAnswer_respond (obsEq_softReset h) rfl
  | dClr => exact sameAnswer_respond (obsEq_clearData h) rfl
  | dPush b =>
    refine sameAnswer_check h (by rw [h.dlen]) fun _ => ?_
    exact sameAnswer_respond (obsEq_pushData h hs ht b) (congrArg (fun n => zext32 (n + 1)) h.dlen)
  | dRd =>
    refine sameAnswer_check h (by rw [h.dlen]) fun hi => ?_
    exact sameAnswer_read h (congrArg zext32 (h.data _ (Nat.lt_of_not_le hi)))
  | vClr => exact sameAnswer_respond (obsEq_clearValues h) rfl
  | vPush b =>
    refine sameAnswer_check h (by rw [h.vlen]) fun _ => ?_
    exact sameAnswer_respond (obsEq_pushValue h hs ht b) (congrArg (fun n => zext32 (n + 1)) h.vlen)
  | vRd =>
    refine sameAnswer_check h (by rw [h.vlen]) fun hi => ?_
    exact sameAnswer_read h (congrArg zext32 (h.value _ (Nat.lt_of_not_le hi)))
  | rsGen n => exact rsGen_sameAnswer h hs ht n
  | rsClr => exact rsClr_sameAnswer h hs ht
  | rsFeed d => exact rsFeed_sameAnswer h hs ht d
  | rsEnc base len => exact rsEnc_sameAnswer h hs ht base len
  | rsRd =>
    refine sameAnswer_check h hN fun _ => sameAnswer_check h (by rw [h.rsN]) fun hi => ?_
    exact sameAnswer_read h (congrArg zext32 (h.rem _ (Nat.lt_of_not_le hi)))
  | rsGrd =>
    refine sameAnswer_check h hN fun hn => sameAnswer_check h (by rw [h.rsN]) fun hi => ?_
    exact sameAnswer_read h (congrArg zext32 (h.gen hn _ (Nat.le_of_not_lt hi)))
  | c128Seq | c93Seq => exact sameAnswer_sequenceExtent h hs ht _ _ _
  | upceExp base len => exact upceExp_sameAnswer h hs ht base len
  | c128Chk | m10Chk | c93Chk => exact sameAnswer_checksumValues h _ _
  | valC128 | valEan13 | valEan8 | valUpca | valUpce | valC39 | valItf | valCbar | valC93 =>
    exact sameAnswer_checkExtent h _ _ _
  | matInit =>
    refine sameAnswer_check h Iff.rfl fun hv => ?_
    exact sameAnswer_respond (obsEq_initMatrix h hs ht (by omega)) rfl
  | matWr row col =>
    refine sameAnswer_check h hver fun _ => sameAnswer_ite (obsEq_cellOk h row col) (fun hcell => ?_) fun _ => ?_
    · exact sameAnswer_respond (obsEq_writeCell h hs ht hcell _) rfl
    · exact sameAnswer_fail h _
  | matRd row col =>
    refine sameAnswer_check h hver fun _ => sameAnswer_ite (obsEq_cellOk h row col) (fun hcell => ?_) fun _ => ?_
    · exact sameAnswer_read h (by rw [h.cell _ _ hcell.1 hcell.2])
    · exact sameAnswer_fail h _
  | maskApply id => exact maskApply_sameAnswer h hs id
  | penScore => exact penScore_sameAnswer h
  | bestClr => exact sameAnswer_respond (obsEq_clearBest h) rfl
  | bestUpd id => exact bestUpd_sameAnswer h id

end

/-- Settles O11: a word that decodes is its command (`exec_sameAnswer`), any other fails alike in both states. -/
theorem unobservableStorageIsNeverObserved : Obligations.UnobservableStorageIsNeverObserved := by
  intro w s t hs ht h
  change SameAnswer s t (acceptWord w s) (acceptWord w t)
  cases hdec : decode w with
  | error e =>
    rw [acceptWord_error s hdec, acceptWord_error t hdec]
    exact sameAnswer_fail h e
  | ok i =>
    rw [acceptWord_ok s hdec, acceptWord_ok t hdec]
    exact exec_sameAnswer h hs ht i

end Sys2Proof.Proofs
end

section
/-! PROOFS. The bounds of the penalty scores (46 R253): the largest value of each rule on a square of at most 177
modules. -/

namespace Sys2Proof.Proofs

open Sys2Proof.Machine Sys2Proof.Claims

theorem sum_map_le {α : Type} (f : α → Nat) (b : Nat) (l : List α) (h : ∀ x ∈ l, f x ≤ b) :
    (l.map f).sum ≤ l.length * b := by
  have hsum := List.sum_le_card_nsmul (l.map f) b (List.forall_mem_map.2 h)
  rwa [List.length_map, smul_eq_mul] at hsum

/-- The sum of one score per line, over at most `2 * 177` lines (46 R240). -/
theorem sum_lines_le {f : List Bool → Nat} {b : Nat} {lines : List (List Bool)} (hlen : lines.length ≤ 2 * matMax)
    (h : ∀ ln ∈ lines, f ln ≤ b) : (lines.map f).sum ≤ 2 * matMax * b :=
  Nat.le_trans (sum_map_le f b lines h) (Nat.mul_le_mul_right b hlen)

/-! ## The rules along a line -/

theorem runScore_le (run : Nat) : runScore run ≤ run - 2 := by
  unfold runScore
  split <;> omega

/-- Splitting a line into runs loses at least as much as one run would score. -/
theorem runsFrom_le (last : Bool) (run : Nat) (ln : List Bool) : runsFrom last run ln ≤ run + ln.length - 2 := by
  fun_induction runsFrom last run ln with
  | case1 last run => exact runScore_le run
  | case2 run x xs ih => simp only [List.length_cons]; omega
  | case3 last run x xs hne ih =>
    have hrun := runScore_le run
    simp only [List.length_cons]
    omega

theorem runsOf_le (ln : List Bool) : runsOf ln ≤ ln.length - 2 := by
  cases ln with
  | nil => exact Nat.zero_le _
  | cons x xs =>
    have h := runsFrom_le x 1 xs
    simp only [runsOf, List.length_cons]
    omega

theorem windowsOf_le {tA tB : List Bool} (hA : tA.length = 11) (hB : tB.length = 11) (ln : List Bool) :
    windowsOf tA tB ln ≤ 40 * (ln.length - 10) := by
  induction ln with
  | nil => exact Nat.zero_le _
  | cons x xs ih =>
    unfold windowsOf
    split
    case isTrue hw =>
      have hlen : ((x :: xs).take 11).length = 11 := by
        rcases hw with hw | hw <;> rw [hw] <;> assumption
      simp only [List.length_take, List.length_cons] at hlen ⊢
      omega
    case isFalse =>
      simp only [List.length_cons]
      omega

theorem blocksOf_le (up down : List Bool) : blocksOf up down ≤ 3 * (down.length - 1) := by
  fun_induction blocksOf up down with
  | case1 a b up x y down ih =>
    simp only [List.length_cons] at ih ⊢
    split <;> omega
  | case2 => exact Nat.zero_le _

/-- Rule (a) as 46 R241 words it: the maximal runs of any splitting of a line. -/
theorem sum_runs_le (runs : List (List Bool)) :
    (runs.map fun run => if 5 ≤ run.length then run.length - 2 else 0).sum ≤ runs.flatten.length - 2 := by
  induction runs with
  | nil => exact Nat.zero_le _
  | cons run runs ih =>
    simp only [List.map_cons, List.sum_cons, List.flatten_cons, List.length_append]
    split <;> omega

/-! ## The rules on a square -/

/-- `rows` has at most 177 rows, each as long as there are rows. -/
structure IsSquare (rows : List (List Bool)) : Prop where
  side_le : rows.length ≤ matMax
  row_length : ∀ row ∈ rows, row.length = rows.length

theorem isSquare_darkRows {s : State} (h : s.Inv) : IsSquare (darkRows s.square) := by
  have hlen : (darkRows s.square).length = s.side := by simp [darkRows, State.square]
  refine ⟨hlen ▸ side_le h, fun row hrow => ?_⟩
  simp only [darkRows, State.square, List.mem_map] at hrow
  obtain ⟨_, ⟨r, -, rfl⟩, rfl⟩ := hrow
  simp [hlen]

section
variable {rows : List (List Bool)}

theorem linesOf_length (rows : List (List Bool)) : (linesOf rows).length = 2 * rows.length := by
  simp [linesOf, columnsOf, two_mul]

theorem length_of_mem_linesOf (h : IsSquare rows) {ln : List Bool} (hln : ln ∈ linesOf rows) :
    ln.length = rows.length := by
  rcases List.mem_append.1 hln with hrow | hcol
  · exact h.row_length ln hrow
  · obtain ⟨c, -, rfl⟩ := List.mem_map.1 hcol
    exact List.length_map _

theorem linesOf_length_le (h : IsSquare rows) : (linesOf rows).length ≤ 2 * matMax :=
  linesOf_length rows ▸ Nat.mul_le_mul_left 2 h.side_le

theorem length_le_of_mem_linesOf (h : IsSquare rows) {ln : List Bool} (hln : ln ∈ linesOf rows) : ln.length ≤ matMax :=
  length_of_mem_linesOf h hln ▸ h.side_le

theorem penaltyA_le (h : IsSquare rows) : penaltyA rows ≤ 61950 :=
  sum_lines_le (b := 175) (linesOf_length_le h) fun ln hln =>
    Nat.le_trans (runsOf_le ln) (Nat.sub_le_sub_right (length_le_of_mem_linesOf h hln) 2)

theorem penaltyB_le_mul (n : Nat) (rows : List (List Bool)) (h : ∀ row ∈ rows, row.length ≤ n) :
    penaltyB rows ≤ (rows.length - 1) * (3 * (n - 1)) := by
  fun_induction penaltyB rows with
  | case1 up down rest ih =>
    have hblocks := blocksOf_le up down
    have hdown := h down (by simp)
    have hrest := ih fun row hrow => h row (List.mem_cons_of_mem _ hrow)
    simp only [List.length_cons, Nat.add_sub_cancel] at hrest ⊢
    rw [Nat.succ_mul]
    omega
  | case2 => exact Nat.zero_le _

theorem penaltyB_le (h : IsSquare rows) : penaltyB rows ≤ 92928 :=
  Nat.le_trans (penaltyB_le_mul matMax rows fun row hrow => h.row_length row hrow ▸ h.side_le)
    (Nat.mul_le_mul_right _ (Nat.sub_le_sub_right h.side_le 1))

theorem penaltyC_le (h : IsSquare rows) : penaltyC unitConfig rows ≤ 2364720 :=
  sum_lines_le (b := 40 * 167) (linesOf_length_le h) fun ln hln =>
    Nat.le_trans (windowsOf_le rfl rfl ln)
      (Nat.mul_le_mul_left 40 (Nat.sub_le_sub_right (length_le_of_mem_linesOf h hln) 10))

/-- Rule (d) where no more cells are dark than there are (46 R245). -/
theorem balance_le {dark total : Nat} (h : dark ≤ total) : balance dark total ≤ 100 := by
  have hq : dark * 20 / total ≤ 20 := Nat.div_le_of_le_mul (Nat.mul_le_mul_right 20 h)
  simp only [balance, absDiff]
  omega

theorem penaltyD_le (h : IsSquare rows) : penaltyD rows ≤ 100 :=
  balance_le (sum_map_le _ rows.length rows fun row hrow => h.row_length row hrow ▸ List.count_le_length)

end

/-- The total of the four largest values (46 R253). -/
theorem total_lt {a b c d : Nat} (ha : a ≤ 61950) (hb : b ≤ 92928) (hc : c ≤ 2364720) (hd : d ≤ 100) :
    a + b + c + d < 2 ^ 22 := by
  omega

/-! ## The rules as 46 words them -/

section
variable {s : State}

theorem sideNat_eq_side (s : State) : sideNat s = s.side := by
  simp [sideNat, State.side, sideOf, BitVec.toNat_eq]

theorem sideNat_le (h : s.Inv) : sideNat s ≤ matMax := sideNat_eq_side s ▸ side_le h

theorem coords_length (n : Nat) : (coords n).length = n * n := by
  simp [coords]

theorem matrixLines_length_le (h : s.Inv) : (matrixLines s).length ≤ 2 * matMax := by
  have hside := sideNat_le h
  simp only [matrixLines, List.length_append, List.length_map, List.length_range]
  omega

theorem length_le_of_mem_matrixLines (h : s.Inv) {ln : List Bool} (hln : ln ∈ matrixLines s) : ln.length ≤ matMax := by
  rcases List.mem_append.1 hln with hln | hln <;> obtain ⟨k, -, rfl⟩ := List.mem_map.1 hln <;>
    simpa using sideNat_le h

theorem scoreA_le (h : s.Inv) : scoreA s ≤ 61950 := by
  refine sum_lines_le (b := 175) (matrixLines_length_le h) fun ln hln => ?_
  have hruns := sum_runs_le (ln.splitBy (· == ·))
  rw [List.flatten_splitBy] at hruns
  exact Nat.le_trans hruns (Nat.sub_le_sub_right (length_le_of_mem_matrixLines h hln) 2)

theorem scoreB_le (h : s.Inv) : scoreB s ≤ 92928 := by
  have hside : sideNat s - 1 ≤ 176 := Nat.sub_le_sub_right (sideNat_le h) 1
  refine Nat.mul_le_mul_left 3 (m := 176 * 176) (Nat.le_trans List.countP_le_length ?_)
  rw [coords_length]
  exact Nat.mul_le_mul hside hside

theorem scoreC_le (h : s.Inv) : scoreC s ≤ 2364720 := by
  refine Nat.mul_le_mul_left 40 (sum_lines_le (b := 167) (matrixLines_length_le h) fun ln _ => ?_)
  refine Nat.le_trans List.countP_le_length ?_
  rw [List.length_range]
  exact Nat.sub_le_sub_right (sideNat_le h) 10

/-- Rule (d) over the integers is the model's over the naturals. -/
theorem scoreD_eq_balance (s : State) :
    scoreD s = balance ((coords (sideNat s)).countP fun p => darkAt s p.1 p.2) (sideNat s * sideNat s) := by
  simp only [scoreD, balance, absDiff]
  omega

theorem scoreD_le (s : State) : scoreD s ≤ 100 := by
  rw [scoreD_eq_balance]
  exact balance_le (coords_length _ ▸ List.countP_le_length)

end

theorem natWord_toNat {n : Nat} (h : n < 2 ^ 32) : (natWord n).toNat = n := by
  rw [natWord, BitVec.toNat_ofNat, Nat.mod_eq_of_lt h]

/-- Settles O58: the bounds of the four rules, on the square and as 46 words them; a valid score is the score of the
square, and no 32-bit register loses a bit of it. -/
theorem penaltyScoresAreBounded : Obligations.PenaltyScoresAreBounded := by
  intro s hs
  have hsq := isSquare_darkRows hs
  have hA := penaltyA_le hsq
  have hB := penaltyB_le hsq
  have hC := penaltyC_le hsq
  have hD := penaltyD_le hsq
  refine ⟨fun hpen hvalid => ?_, fun rows hrows => ?_, ?_⟩
  · obtain ⟨-, -, rA, rB, rC, rD, rT⟩ := hpen hvalid
    have eA : s.penA.toNat = penaltyA (darkRows s.square) := by rw [rA, natWord_toNat (by omega)]
    have eB : s.penB.toNat = penaltyB (darkRows s.square) := by rw [rB, natWord_toNat (by omega)]
    have eC : s.penC.toNat = penaltyC unitConfig (darkRows s.square) := by rw [rC, natWord_toNat (by omega)]
    have eD : s.penD.toNat = penaltyD (darkRows s.square) := by rw [rD, natWord_toNat (by omega)]
    have eT : s.penTotal.toNat = s.penA.toNat + s.penB.toNat + s.penC.toNat + s.penD.toNat := by
      rw [rT]
      simp only [BitVec.toNat_add]
      omega
    omega
  · subst hrows
    exact ⟨hA, hB, hC, hD, total_lt hA hB hC hD⟩
  · exact ⟨scoreA_le hs, scoreB_le hs, scoreC_le hs, scoreD_le s,
      total_lt (scoreA_le hs) (scoreB_le hs) (scoreC_le hs) (scoreD_le s)⟩

end Sys2Proof.Proofs
end

section
/-! PROOFS. The command encoding (30 R85, R87, R90): the words of each format, cut into their fields, and the round trip
between words and commands. -/

namespace Sys2Proof.Proofs

open Sys2Proof.Machine Sys2Proof.Claims

/-! ## Fields of a word -/

theorem eq_append_iff {m n : Nat} {x : BitVec m} {y : BitVec n} {z : BitVec (m + n)} :
    z = x ++ y ↔ z.extractLsb' n m = x ∧ z.extractLsb' 0 n = y := by
  constructor
  · rintro rfl
    exact ⟨BitVec.extractLsb'_append_eq_left, BitVec.extractLsb'_append_eq_right⟩
  · rintro ⟨rfl, rfl⟩
    exact BitVec.extractLsb'_append_extractLsb'.symm

/-- A field of a field is a field. -/
theorem extractLsb'_extractLsb' {k start start' len len' : Nat} (x : BitVec k) (h : start + len ≤ len') :
    (x.extractLsb' start' len').extractLsb' start len = x.extractLsb' (start' + start) len := by
  ext i hi
  simp only [BitVec.getElem_extractLsb', BitVec.getLsbD_extractLsb', Nat.add_assoc, Bool.and_eq_right_iff_imp,
    decide_eq_true_iff]
  omega

/-- A field that holds a narrower operand: the bits above the operand are 0 (30 R87). -/
theorem eq_setWidth_iff {m n : Nat} {x : BitVec n} {z : BitVec m} (h : n ≤ m) :
    z = x.setWidth m ↔ z.extractLsb' n (m - n) = 0 ∧ z.extractLsb' 0 n = x := by
  obtain ⟨k, rfl⟩ := Nat.exists_eq_add_of_le' h
  have hx : x.setWidth (k + n) = 0#k ++ x := by
    rw [BitVec.toNat_eq, BitVec.toNat_setWidth_of_le h, BitVec.toNat_append]
    simp
  rw [hx, eq_append_iff, Nat.add_sub_cancel]
  rfl

/-- A field is 0 when its upper and its lower part are. -/
theorem extractLsb'_eq_zero_iff {k start hi lo : Nat} {x : BitVec k} :
    x.extractLsb' start (hi + lo) = 0 ↔ x.extractLsb' (start + lo) hi = 0 ∧ x.extractLsb' start lo = 0 := by
  have hzero : (0 : BitVec (hi + lo)) = 0#hi ++ 0#lo := BitVec.zero_append_zero.symm
  rw [hzero, eq_append_iff, extractLsb'_extractLsb' x (by omega), extractLsb'_extractLsb' x (by omega)]
  rfl

/-- The mask of the `len` bits from bit `start` up. The must-be-zero bits of a row are such a run of bits, or none. -/
def fieldMask (start len : Nat) : Word := (BitVec.allOnes len).setWidth 32 <<< start

theorem getLsbD_fieldMask (start len i : Nat) :
    (fieldMask start len).getLsbD i = (decide (i < 32) && decide (start ≤ i) && decide (i < start + len)) := by
  simp only [fieldMask, BitVec.getLsbD_shiftLeft, BitVec.getLsbD_setWidth, BitVec.getLsbD_allOnes]
  grind

/-- The must-be-zero test of 30 R88 looks at one field. -/
theorem and_fieldMask_eq_zero_iff {start len : Nat} (h : start + len ≤ 32) {w : Word} :
    w &&& fieldMask start len = 0 ↔ w.extractLsb' start len = 0 := by
  simp only [BitVec.eq_of_getLsbD_eq_iff, BitVec.getLsbD_and, BitVec.getLsbD_extractLsb', getLsbD_fieldMask]
  constructor
  · intro hw i hi
    have := hw (start + i) (by omega)
    grind
  · intro hw i hi
    have := hw (i - start)
    grind

/-! ## The words of each format -/

theorem eq_encZ_iff {op : Byte} {w : Word} : w = encZ op ↔ opOf w = op ∧ w &&& fieldMask 0 24 = 0 := by
  rw [and_fieldMask_eq_zero_iff (by decide)]
  exact eq_append_iff (m := 8) (n := 24)

theorem eq_encB_iff {op b : Byte} {w : Word} :
    w = encB op b ↔ opOf w = op ∧ w &&& fieldMask 8 16 = 0 ∧ byte0 w = b := by
  rw [and_fieldMask_eq_zero_iff (by decide)]
  simp only [encB, opOf, byte0, eq_append_iff (m := 24) (n := 8), eq_append_iff (m := 8) (n := 16)]
  simp [extractLsb'_extractLsb', and_assoc]

/-- Format B with an operand of `n` bits (30 R87). -/
theorem eq_encB_setWidth_iff {op : Byte} {n : Nat} (hn : n ≤ 8) {x : BitVec n} {w : Word} :
    w = encB op (x.setWidth 8) ↔ opOf w = op ∧ w &&& fieldMask n (24 - n) = 0 ∧ w.extractLsb' 0 n = x := by
  rw [eq_encB_iff, eq_setWidth_iff hn, byte0, extractLsb'_extractLsb' w (by omega),
    extractLsb'_extractLsb' w (by omega), and_fieldMask_eq_zero_iff (by decide), and_fieldMask_eq_zero_iff (by omega),
    show 24 - n = 16 + (8 - n) by omega, extractLsb'_eq_zero_iff]
  simp [hn, and_assoc]

theorem eq_encBBB_iff {op x y z : Byte} {w : Word} :
    w = encBBB op x y z ↔ opOf w = op ∧ byte2 w = x ∧ byte1 w = y ∧ byte0 w = z := by
  simp only [encBBB, opOf, byte2, byte1, byte0, eq_append_iff (m := 24) (n := 8), eq_append_iff (m := 16) (n := 8),
    eq_append_iff (m := 8) (n := 8)]
  simp [extractLsb'_extractLsb', and_assoc]

theorem eq_encBB_iff {op a b : Byte} {w : Word} :
    w = encBB op a b ↔ opOf w = op ∧ w &&& fieldMask 16 8 = 0 ∧ byte1 w = a ∧ byte0 w = b := by
  rw [and_fieldMask_eq_zero_iff (by decide)]
  exact eq_encBBB_iff (x := 0)

/-- Format BBB with a last operand of 2 bits, as `MAT.WR` has it (30 R87). -/
theorem eq_encBBB_setWidth_last_iff {op x y : Byte} {z : BitVec 2} {w : Word} :
    w = encBBB op x y (z.setWidth 8) ↔
      opOf w = op ∧ w &&& fieldMask 2 6 = 0 ∧ byte2 w = x ∧ byte1 w = y ∧ w.extractLsb' 0 2 = z := by
  rw [eq_encBBB_iff, eq_setWidth_iff (by decide), byte0, extractLsb'_extractLsb' w (by decide),
    extractLsb'_extractLsb' w (by decide), and_fieldMask_eq_zero_iff (by decide)]
  tauto

/-- Format BBB with a first operand of 3 bits, as `MASK.BIT` has it (30 R87). -/
theorem eq_encBBB_setWidth_first_iff {op y z : Byte} {x : BitVec 3} {w : Word} :
    w = encBBB op (x.setWidth 8) y z ↔
      opOf w = op ∧ w &&& fieldMask 19 5 = 0 ∧ w.extractLsb' 16 3 = x ∧ byte1 w = y ∧ byte0 w = z := by
  rw [eq_encBBB_iff, eq_setWidth_iff (by decide), byte2, extractLsb'_extractLsb' w (by decide),
    extractLsb'_extractLsb' w (by decide), and_fieldMask_eq_zero_iff (by decide)]
  tauto

theorem eq_encAL_iff {op : Byte} {base len : BitVec 12} {w : Word} :
    w = encAL op base len ↔ opOf w = op ∧ baseOf w = base ∧ low12 w = len := by
  simp only [encAL, opOf, baseOf, low12, eq_append_iff (m := 20) (n := 12), eq_append_iff (m := 8) (n := 12)]
  simp [extractLsb'_extractLsb', and_assoc]

theorem eq_encI_iff {op : Byte} {idx : BitVec 12} {w : Word} :
    w = encI op idx ↔ opOf w = op ∧ w &&& fieldMask 12 12 = 0 ∧ low12 w = idx := by
  rw [and_fieldMask_eq_zero_iff (by decide)]
  exact eq_encAL_iff (base := 0)

/-! ## From commands to words and back -/

section
variable {op : Byte}

theorem decode_of_rowOf {mustBeZero w : Word} {build : Word → Instr} (hrow : rowOf op = some ⟨op, mustBeZero, build⟩)
    (hop : opOf w = op) (hzero : w &&& mustBeZero = 0) : decode w = .ok (build w) := by
  rw [decodesAs_of_rowOf hrow w hop, if_pos hzero]

theorem decode_encZ {i : Instr} (h : rowOf op = some ⟨op, fieldMask 0 24, fun _ => i⟩) : decode (encZ op) = .ok i := by
  obtain ⟨hop, hzero⟩ := eq_encZ_iff.1 (rfl : encZ op = _)
  exact decode_of_rowOf h hop hzero

theorem decode_encB {c : Byte → Instr} (b : Byte) (h : rowOf op = some ⟨op, fieldMask 8 16, fun w => c (byte0 w)⟩) :
    decode (encB op b) = .ok (c b) := by
  obtain ⟨hop, hzero, hb⟩ := eq_encB_iff.1 (rfl : encB op b = _)
  rw [decode_of_rowOf h hop hzero, hb]

theorem decode_encB_setWidth {n : Nat} {c : BitVec n → Instr} (x : BitVec n) (hn : n ≤ 8)
    (h : rowOf op = some ⟨op, fieldMask n (24 - n), fun w => c (w.extractLsb' 0 n)⟩) :
    decode (encB op (x.setWidth 8)) = .ok (c x) := by
  obtain ⟨hop, hzero, hx⟩ := (eq_encB_setWidth_iff hn).1 (rfl : encB op (x.setWidth 8) = _)
  rw [decode_of_rowOf h hop hzero, hx]

theorem decode_encBB {c : Byte → Byte → Instr} (a b : Byte)
    (h : rowOf op = some ⟨op, fieldMask 16 8, fun w => c (byte1 w) (byte0 w)⟩) :
    decode (encBB op a b) = .ok (c a b) := by
  obtain ⟨hop, hzero, ha, hb⟩ := eq_encBB_iff.1 (rfl : encBB op a b = _)
  rw [decode_of_rowOf h hop hzero, ha, hb]

theorem decode_encAL {c : BitVec 12 → BitVec 12 → Instr} (base len : BitVec 12)
    (h : rowOf op = some ⟨op, 0, fun w => c (baseOf w) (low12 w)⟩) : decode (encAL op base len) = .ok (c base len) := by
  obtain ⟨hop, hbase, hlen⟩ := eq_encAL_iff.1 (rfl : encAL op base len = _)
  rw [decode_of_rowOf h hop (BitVec.and_zero), hbase, hlen]

theorem decode_encI {c : BitVec 12 → Instr} (idx : BitVec 12)
    (h : rowOf op = some ⟨op, fieldMask 12 12, fun w => c (low12 w)⟩) : decode (encI op idx) = .ok (c idx) := by
  obtain ⟨hop, hzero, hidx⟩ := eq_encI_iff.1 (rfl : encI op idx = _)
  rw [decode_of_rowOf h hop hzero, hidx]

end

theorem decode_encode_matWr (row col : Byte) (z : BitVec 2) :
    decode (encode (.matWr row col z)) = .ok (.matWr row col z) := by
  obtain ⟨hop, hzero, hrow, hcol, hz⟩ := eq_encBBB_setWidth_last_iff.1 (rfl : encode (.matWr row col z) = _)
  rw [decode_of_rowOf rfl hop hzero, hrow, hcol, hz]

theorem decode_encode_maskBit (id : BitVec 3) (row col : Byte) :
    decode (encode (.maskBit id row col)) = .ok (.maskBit id row col) := by
  obtain ⟨hop, hzero, hid, hrow, hcol⟩ := eq_encBBB_setWidth_first_iff.1 (rfl : encode (.maskBit id row col) = _)
  rw [decode_of_rowOf rfl hop hzero, hid, hrow, hcol]

/-- Settles O1: each command is a word of its format, whose fields give the operands back. -/
theorem decodeOfEncodeIsTheCommand : Obligations.DecodeOfEncodeIsTheCommand := by
  intro i
  cases i with
  | nop | srst | dClr | vClr | rsClr | c128Chk | m10Chk | c93Chk | penScore | bestClr => exact decode_encZ rfl
  | dPush b | vPush b | gfExp b | gfLog b | rsGen b | rsFeed b => exact decode_encB b rfl
  | bchFmt x | bchVer x | parEan13 x | parUpce x | matInit x | maskApply x | bestUpd x =>
    exact decode_encB_setWidth x (by decide) rfl
  | gfMul a b | matRd a b => exact decode_encBB a b rfl
  | csrRd idx | dRd idx | vRd idx | rsRd idx | rsGrd idx => exact decode_encI idx rfl
  | matWr row col z => exact decode_encode_matWr row col z
  | maskBit id row col => exact decode_encode_maskBit id row col
  | rsEnc base len | c128Seq base len | upceExp base len | c93Seq base len | valC128 base len | valEan13 base len
  | valEan8 base len | valUpca base len | valUpce base len | valC39 base len | valItf base len | valCbar base len
  | valC93 base len => exact decode_encAL base len rfl

/-! ## The rows of the opcode map -/

theorem opcodeMap_ops_nodup : (opcodeMap.map Row.op).Nodup := by decide

theorem mem_of_rowOf {op : Byte} {r : Row} (h : rowOf op = some r) : r ∈ opcodeMap ∧ op = r.op :=
  ⟨List.mem_of_find?_eq_some h, (eq_of_beq (List.find?_some (p := fun x : Row => x.op == op) h)).symm⟩

/-- A row is found by its opcode byte, for no two rows share one (30 R86). -/
theorem rowOf_op {r : Row} (hr : r ∈ opcodeMap) : rowOf r.op = some r := by
  cases h : rowOf r.op with
  | none => exact absurd (beq_self_eq_true r.op) (List.find?_eq_none.1 h r hr)
  | some r' =>
    obtain ⟨hr', hop⟩ := mem_of_rowOf h
    rw [List.inj_on_of_nodup_map opcodeMap_ops_nodup hr' hr hop.symm]

/-- The decoder on a word with the opcode byte of a row (30 R91). -/
theorem decode_of_mem {r : Row} {w : Word} (hr : r ∈ opcodeMap) (hop : opOf w = r.op) :
    decode w = if w &&& r.mustBeZero = 0 then .ok (r.build w) else .error .eField :=
  decodesAs_of_rowOf (rowOf_op hr) w hop

/-- The decoder on a word whose opcode byte has no row (30 R92). -/
theorem decode_of_rowOf_none {w : Word} (h : rowOf (opOf w) = none) : decode w = .error .eOpcode := by
  simp only [decode, h]

/-- The words that decode, and to what: the build of the one row whose opcode byte and must-be-zero bits they meet. -/
theorem decode_eq_ok_iff {w : Word} {i : Instr} :
    decode w = .ok i ↔ ∃ r ∈ opcodeMap, opOf w = r.op ∧ w &&& r.mustBeZero = 0 ∧ r.build w = i := by
  constructor
  · intro h
    cases hrow : rowOf (opOf w) with
    | none =>
      rw [decode_of_rowOf_none hrow] at h
      cases h
    | some r =>
      obtain ⟨hr, hop⟩ := mem_of_rowOf hrow
      rw [decode_of_mem hr hop] at h
      by_cases hzero : w &&& r.mustBeZero = 0
      · rw [if_pos hzero] at h
        injection h with hbuild
        exact ⟨r, hr, hop, hzero, hbuild⟩
      · rw [if_neg hzero] at h
        cases h
  · rintro ⟨r, hr, hop, hzero, rfl⟩
    rw [decode_of_mem hr hop, if_pos hzero]

/-! ## From words to commands and back -/

/-- Each word of the row is the word of the command that the row makes of it. -/
def RoundTrips (r : Row) : Prop := ∀ w : Word, opOf w = r.op → w &&& r.mustBeZero = 0 → encode (r.build w) = w

section
variable {op : Byte}

theorem RoundTrips.formatZ (i : Instr) (h : encode i = encZ op := by rfl) :
    RoundTrips ⟨op, fieldMask 0 24, fun _ => i⟩ :=
  fun _ hop hzero => h.trans (eq_encZ_iff.2 ⟨hop, hzero⟩).symm

theorem RoundTrips.formatB (c : Byte → Instr) (h : ∀ b, encode (c b) = encB op b := by exact fun _ => rfl) :
    RoundTrips ⟨op, fieldMask 8 16, fun w => c (byte0 w)⟩ :=
  fun _ hop hzero => (h _).trans (eq_encB_iff.2 ⟨hop, hzero, rfl⟩).symm

theorem RoundTrips.formatNarrowB {n : Nat} (c : BitVec n → Instr) (hn : n ≤ 8 := by decide)
    (h : ∀ x, encode (c x) = encB op (x.setWidth 8) := by exact fun _ => rfl) :
    RoundTrips ⟨op, fieldMask n (24 - n), fun w => c (w.extractLsb' 0 n)⟩ :=
  fun _ hop hzero => (h _).trans ((eq_encB_setWidth_iff hn).2 ⟨hop, hzero, rfl⟩).symm

theorem RoundTrips.formatBB (c : Byte → Byte → Instr)
    (h : ∀ a b, encode (c a b) = encBB op a b := by exact fun _ _ => rfl) :
    RoundTrips ⟨op, fieldMask 16 8, fun w => c (byte1 w) (byte0 w)⟩ :=
  fun _ hop hzero => (h _ _).trans (eq_encBB_iff.2 ⟨hop, hzero, rfl, rfl⟩).symm

theorem RoundTrips.formatAL (c : BitVec 12 → BitVec 12 → Instr)
    (h : ∀ base len, encode (c base len) = encAL op base len := by exact fun _ _ => rfl) :
    RoundTrips ⟨op, 0, fun w => c (baseOf w) (low12 w)⟩ :=
  fun _ hop _ => (h _ _).trans (eq_encAL_iff.2 ⟨hop, rfl, rfl⟩).symm

theorem RoundTrips.formatI (c : BitVec 12 → Instr)
    (h : ∀ idx, encode (c idx) = encI op idx := by exact fun _ => rfl) :
    RoundTrips ⟨op, fieldMask 12 12, fun w => c (low12 w)⟩ :=
  fun _ hop hzero => (h _).trans (eq_encI_iff.2 ⟨hop, hzero, rfl⟩).symm

end

theorem RoundTrips.matWr :
    RoundTrips ⟨0x61, fieldMask 2 6, fun w => .matWr (byte2 w) (byte1 w) (w.extractLsb' 0 2)⟩ :=
  fun _ hop hzero => (eq_encBBB_setWidth_last_iff.2 ⟨hop, hzero, rfl, rfl, rfl⟩).symm

theorem RoundTrips.maskBit :
    RoundTrips ⟨0x63, fieldMask 19 5, fun w => .maskBit (w.extractLsb' 16 3) (byte1 w) (byte0 w)⟩ :=
  fun _ hop hzero => (eq_encBBB_setWidth_first_iff.2 ⟨hop, hzero, rfl, rfl, rfl⟩).symm

theorem rowsControl_roundTrip : ∀ r ∈ rowsControl, RoundTrips r := by
  simp only [rowsControl, List.forall_mem_cons, List.not_mem_nil, IsEmpty.forall_iff, implies_true, and_true]
  exact ⟨.formatZ .nop, .formatZ .srst, .formatI .csrRd, .formatZ .dClr, .formatB .dPush, .formatI .dRd,
    .formatZ .vClr, .formatB .vPush, .formatI .vRd⟩

theorem rowsField_roundTrip : ∀ r ∈ rowsField, RoundTrips r := by
  simp only [rowsField, List.forall_mem_cons, List.not_mem_nil, IsEmpty.forall_iff, implies_true, and_true]
  exact ⟨.formatBB .gfMul, .formatB .gfExp, .formatB .gfLog, .formatB .rsGen, .formatZ .rsClr, .formatB .rsFeed,
    .formatAL .rsEnc, .formatI .rsRd, .formatI .rsGrd, .formatNarrowB .bchFmt, .formatNarrowB .bchVer⟩

theorem rowsBarcode_roundTrip : ∀ r ∈ rowsBarcode, RoundTrips r := by
  simp only [rowsBarcode, List.forall_mem_cons, List.not_mem_nil, IsEmpty.forall_iff, implies_true, and_true]
  exact ⟨.formatAL .c128Seq, .formatZ .c128Chk, .formatZ .m10Chk, .formatAL .upceExp, .formatZ .c93Chk,
    .formatNarrowB .parEan13, .formatNarrowB .parUpce, .formatAL .c93Seq⟩

theorem rowsValidate_roundTrip : ∀ r ∈ rowsValidate, RoundTrips r := by
  simp only [rowsValidate, List.forall_mem_cons, List.not_mem_nil, IsEmpty.forall_iff, implies_true, and_true]
  exact ⟨.formatAL .valC128, .formatAL .valEan13, .formatAL .valEan8, .formatAL .valUpca, .formatAL .valUpce,
    .formatAL .valC39, .formatAL .valItf, .formatAL .valCbar, .formatAL .valC93⟩

theorem rowsMatrix_roundTrip : ∀ r ∈ rowsMatrix, RoundTrips r := by
  simp only [rowsMatrix, List.forall_mem_cons, List.not_mem_nil, IsEmpty.forall_iff, implies_true, and_true]
  exact ⟨.formatNarrowB .matInit, .matWr, .formatBB .matRd, .maskBit, .formatNarrowB .maskApply, .formatZ .penScore,
    .formatZ .bestClr, .formatNarrowB .bestUpd⟩

theorem opcodeMap_roundTrip : ∀ r ∈ opcodeMap, RoundTrips r := by
  simp only [opcodeMap, List.forall_mem_append]
  exact ⟨⟨⟨⟨rowsControl_roundTrip, rowsField_roundTrip⟩, rowsBarcode_roundTrip⟩, rowsValidate_roundTrip⟩,
    rowsMatrix_roundTrip⟩

/-- Settles O2: the row that decodes the word makes a command whose word is this one. -/
theorem encodeOfDecodeIsTheWord : Obligations.EncodeOfDecodeIsTheWord := by
  intro w i h
  obtain ⟨r, hr, hop, hzero, rfl⟩ := decode_eq_ok_iff.1 h
  exact opcodeMap_roundTrip r hr w hop hzero

/-- Settles O4: each printed word is the word of its command. -/
theorem printedWordsDecodeToTheirCommands : Obligations.PrintedWordsDecodeToTheirCommands :=
  have h := decodeOfEncodeIsTheCommand
  ⟨h .nop, h (.csrRd 13), h (.dPush 0x7B), h (.vRd 9), h (.gfMul 0x57 0x1D), h (.rsEnc 3 5), h (.bchVer 40),
    h (.c128Seq 1 9), h (.parUpce 4), h (.valC93 4095 4095), h (.matWr 6 8 3), h (.maskBit 5 3 4), h (.bestUpd 7)⟩

/-! ## The opcode table -/

/-- `match` and `mask` of a row of the opcode map (30 R86). -/
def rowPattern (r : Row) : Word × Word := (r.op ++ 0#24, 0xFF000000 ||| r.mustBeZero)

theorem opcodeRows_eq_map : opcodeRows = opcodeMap.map rowPattern := by decide

theorem mustBeZero_opcodeByte : ∀ r ∈ opcodeMap, r.mustBeZero.extractLsb' 24 8 = 0#8 := by decide

/-- A word matches a row under its mask when it has the row's opcode byte and no must-be-zero bit set. -/
theorem matches_rowPattern_iff {r : Row} (hr : r ∈ opcodeMap) {w : Word} :
    w &&& (rowPattern r).2 = (rowPattern r).1 ↔ opOf w = r.op ∧ w &&& r.mustBeZero = 0 := by
  have hbyte := mustBeZero_opcodeByte r hr
  have hhigh : (0xFF000000 : Word).extractLsb' 24 8 = BitVec.allOnes 8 := by decide
  have hlow : (0xFF000000 : Word).extractLsb' 0 24 = 0#24 := by decide
  have hzero : w &&& r.mustBeZero = 0 ↔ w.extractLsb' 0 24 &&& r.mustBeZero.extractLsb' 0 24 = 0#24 := by
    rw [← BitVec.extractLsb'_eq_self (x := w &&& r.mustBeZero), extractLsb'_eq_zero_iff (hi := 8) (lo := 24)]
    simp [BitVec.extractLsb'_and, hbyte]
  rw [hzero, rowPattern, eq_append_iff (m := 8) (n := 24)]
  simp only [BitVec.extractLsb'_and, BitVec.extractLsb'_or, hbyte, hhigh, hlow, opOf, BitVec.or_zero, BitVec.zero_or,
    BitVec.and_allOnes]

/-- Settles O3: the opcode table is the opcode map in the form of matches and masks (`matches_rowPattern_iff`). -/
theorem decodableWordsAreTheTablesWords : Obligations.DecodableWordsAreTheTablesWords := by
  intro w
  rw [opcodeRows_eq_map]
  constructor
  · rintro ⟨i, h⟩
    obtain ⟨r, hr, hop, hzero, -⟩ := decode_eq_ok_iff.1 h
    exact ⟨rowPattern r, List.mem_map_of_mem hr, (matches_rowPattern_iff hr).2 ⟨hop, hzero⟩⟩
  · rintro ⟨row, hrow, hmatch⟩
    obtain ⟨r, hr, rfl⟩ := List.mem_map.1 hrow
    obtain ⟨hop, hzero⟩ := (matches_rowPattern_iff hr).1 hmatch
    exact ⟨r.build w, decode_eq_ok_iff.2 ⟨r, hr, hop, hzero, rfl⟩⟩

/-- The bytes of 30 R92 are those that no row has. -/
theorem illegalByte_toNat : ∀ op : Byte, illegalByte op.toNat = (rowOf op).isNone := by decide

theorem countP_illegalByte : (List.range 256).countP illegalByte = 211 := by decide +kernel

end Sys2Proof.Proofs
end

section
/-! PROOFS. One step (30 R81, R88, R91, R92): a word that decodes runs its command, any other fails and changes nothing
else; either way there is one response. -/

namespace Sys2Proof.Proofs

open Sys2Proof.Machine Sys2Proof.Claims

section
variable {s : State} {w : Word} {rest : List HostInput} (hin : s.inputs = .command w :: rest)
include hin

theorem step_command : step s = acceptWord w { s with inputs := rest } := by
  simp only [step, takeInput, hin]
  rfl

/-- A word that does not decode fails and changes nothing (60 R322). -/
theorem step_of_decode_error {e : FailCode} (hdec : decode w = .error e) :
    step s = .next (failed { s with inputs := rest } e) := by
  rw [step_command hin, acceptWord_error _ hdec]
  rfl

end

/-- Settles O5: the step accepts the word, and the port runs what it decodes to. -/
theorem stepRunsTheDecodedCommand : Obligations.StepRunsTheDecodedCommand := by
  intro s w rest i hin hdec
  rw [step_command hin, acceptWord_ok _ hdec]

/-- Settles O18: an idle step and a hardware reset look at no word. -/
theorem idleStepAndHardwareReset : Obligations.IdleStepAndHardwareReset :=
  ⟨step_idle, step_hardReset⟩

/-- Settles O6: a byte without a row is refused before the rest of the word is looked at. -/
theorem illegalOpcodeBytesFail : Obligations.IllegalOpcodeBytesFail := by
  refine ⟨countP_illegalByte, fun s w rest hin => ?_⟩
  rw [illegalByte_toNat]
  cases hrow : rowOf (w.extractLsb' 24 8) with
  | none => exact step_of_decode_error hin (decode_of_rowOf_none hrow)
  | some r =>
    obtain ⟨hr, hop⟩ := mem_of_rowOf hrow
    show (∃ i, decode w = .ok i) ∨ decode w = .error .eField
    by_cases hzero : w &&& r.mustBeZero = 0
    · exact .inl ⟨r.build w, decode_eq_ok_iff.2 ⟨r, hr, hop, hzero, rfl⟩⟩
    · exact .inr (by rw [decode_of_mem hr hop, if_neg hzero])

/-- Settles O7: the word's row is the one of its opcode byte, and the word fails that row's must-be-zero test. -/
theorem mustBeZeroBitsFail : Obligations.MustBeZeroBitsFail := by
  intro s w rest hin row hrow hop hmatch
  rw [opcodeRows_eq_map] at hrow
  obtain ⟨r, hr, rfl⟩ := List.mem_map.1 hrow
  have hbyte : opOf w = r.op := hop.trans BitVec.extractLsb'_append_eq_left
  have hset : w &&& r.mustBeZero ≠ 0 := fun hzero => hmatch ((matches_rowPattern_iff hr).2 ⟨hbyte, hzero⟩)
  exact step_of_decode_error hin (by rw [decode_of_mem hr hbyte, if_neg hset])

theorem Writes.inputs_eq {i : Instr} {s u : State} (h : Writes i s u) : u.inputs = s.inputs := by
  cases h <;> rfl

theorem Writes.responses_eq {i : Instr} {s u : State} (h : Writes i s u) : u.responses = s.responses := by
  cases h <;> rfl

/-- The unit accepts every word with one response and takes no input for it. -/
theorem acceptWord_answers (w : Word) (s : State) : ∃ t r, acceptWord w s = .next t ∧ s.answered t r := by
  cases hdec : decode w with
  | error e => exact ⟨_, _, acceptWord_error s hdec, rfl, rfl⟩
  | ok i =>
    obtain ⟨u, r, hw, hx⟩ := exec_respondsAfter i s
    refine ⟨u.emit r, r, (acceptWord_ok s hdec).trans hx, ?_, hw.inputs_eq⟩
    rw [State.emit_responses, hw.responses_eq]

/-- Settles O8: the three kinds of step are the idle one, the hardware reset and a word's (`acceptWord_answers`). -/
theorem everyStepGoesOnWithOneResponse : Obligations.EveryStepGoesOnWithOneResponse := by
  have hword (s : State) (w : Word) (rest : List HostInput) (hin : s.inputs = .command w :: rest) :
      ∃ t r, step s = .next t ∧ t.inputs = rest ∧ t.responses = r :: s.responses := by
    obtain ⟨t, r, ht, hresp, hrest⟩ := acceptWord_answers w { s with inputs := rest }
    exact ⟨t, r, (step_command hin).trans ht, hrest, hresp⟩
  refine ⟨fun s => ?_, hword⟩
  cases hin : s.inputs with
  | nil => exact ⟨s, step_idle s hin⟩
  | cons input rest =>
    cases input with
    | hardReset abandoned => exact ⟨_, step_hardReset s abandoned rest hin⟩
    | command w =>
      obtain ⟨t, -, ht, -⟩ := hword s w rest hin
      exact ⟨t, ht⟩

end Sys2Proof.Proofs
end

section
/-! PROOFS. GF(256): multiplying by `α^i` is doubling `i` times, which gives the laws of `GFMUL` and the shift-and-add
product (40 R114, R116), and the three commands' answers (40 R115, R117, R118). -/

namespace Sys2Proof.Proofs

open Sys2Proof.Machine Sys2Proof.Claims

/-! ## Powers of α and logarithms -/

/-- `LOG` undoes the powers of α below 255 (40 R119). -/
theorem logAt_alphaPow {i : Nat} (hi : i < 255) : (logAt logTable (alphaPow i)).toNat = i := by
  rw [← expAt_eq_alphaPow hi, logAt_expAt i hi]

/-- Every byte but 0 is the power of α that `LOG` names. -/
theorem alphaPow_logAt {a : Byte} (ha : a ≠ 0) : alphaPow (logAt logTable a).toNat = a := by
  obtain ⟨hinv, hlt⟩ := expAt_logAt a ha
  rw [← expAt_eq_alphaPow hlt, hinv]

/-- A byte is 0 or a power of α: the case split of the laws below. -/
theorem eq_zero_or_eq_alphaPow (a : Byte) : a = 0 ∨ ∃ i, a = alphaPow i :=
  (eq_or_ne a 0).imp_right fun ha => ⟨_, (alphaPow_logAt ha).symm⟩

/-! ## Doubling -/

theorem xtime_iterate_alphaPow (i j : Nat) : xtime^[i] (alphaPow j) = alphaPow (i + j) :=
  (Function.iterate_add_apply xtime i j 1).symm

theorem xtime_iterate_zero (i : Nat) : xtime^[i] 0 = 0 := Function.iterate_fixed rfl i

/-- Doubling 255 times changes no byte, for `α^255 = 1` (40 R114). -/
theorem xtime_isPeriodicPt (a : Byte) : Function.IsPeriodicPt xtime 255 a := by
  have hone : Function.IsPeriodicPt xtime 255 1 := show xtime^[255] 1 = 1 by decide +kernel
  obtain rfl | ⟨i, rfl⟩ := eq_zero_or_eq_alphaPow a
  · exact xtime_iterate_zero 255
  · exact hone.apply_iterate i

theorem xtime_injective : Function.Injective xtime :=
  Function.LeftInverse.injective (g := xtime^[254]) fun a =>
    (Function.iterate_succ_apply xtime 254 a).symm.trans (xtime_isPeriodicPt a)

/-- Doubling is the shift, with the low byte of `GF_POLY` added when a bit is shifted out. -/
theorem xtime_eq_shiftLeft_xor : ∀ v : Byte, xtime v = v <<< 1 ^^^ (if v.msb then 0x1D else 0) := by
  decide +kernel

theorem xtime_xor (a b : Byte) : xtime (a ^^^ b) = xtime a ^^^ xtime b := by
  simp only [xtime_eq_shiftLeft_xor, BitVec.shiftLeft_xor_distrib, BitVec.msb_xor]
  cases a.msb <;> cases b.msb <;> grind

theorem xtime_iterate_xor (i : Nat) (a b : Byte) : xtime^[i] (a ^^^ b) = xtime^[i] a ^^^ xtime^[i] b :=
  Function.Semiconj₂.iterate xtime_xor i a b

/-! ## The laws of `GFMUL` -/

theorem gfMul_zero (exp log : List Byte) (a : Byte) : gfMul exp log a 0 = 0 := if_pos (.inr rfl)

theorem zero_gfMul (exp log : List Byte) (a : Byte) : gfMul exp log 0 a = 0 := if_pos (.inl rfl)

/-- The exponents of α add; the reduction modulo 255 changes no power (40 R114). -/
theorem gfMul_of_ne_zero {a b : Byte} (ha : a ≠ 0) (hb : b ≠ 0) :
    gfMul expTable logTable a b = alphaPow ((logAt logTable a).toNat + (logAt logTable b).toNat) := by
  rw [gfMul, if_neg (not_or.mpr ⟨ha, hb⟩), expAt_eq_alphaPow (Nat.mod_lt _ (by decide))]
  exact (xtime_isPeriodicPt 1).iterate_mod_apply _

theorem alphaPow_ne_zero (i : Nat) : alphaPow i ≠ 0 := fun h =>
  absurd (xtime_injective.iterate i (h.trans (xtime_iterate_zero i).symm)) (by decide)

/-- Multiplying by `α^i` is doubling `i` times. -/
theorem gfMul_alphaPow (i : Nat) (b : Byte) : gfMul expTable logTable (alphaPow i) b = xtime^[i] b := by
  have hlog : xtime^[(logAt logTable (alphaPow i)).toNat] b = xtime^[i] b := by
    rw [← (xtime_isPeriodicPt b).iterate_mod_apply i, ← logAt_alphaPow (Nat.mod_lt i (by decide : 0 < 255))]
    congr 3
    exact ((xtime_isPeriodicPt 1).iterate_mod_apply i).symm
  by_cases hb : b = 0
  · rw [hb, gfMul_zero, xtime_iterate_zero]
  · rw [gfMul_of_ne_zero (alphaPow_ne_zero i) hb, ← xtime_iterate_alphaPow, alphaPow_logAt hb, hlog]

theorem gfMul_assoc (a b c : Byte) :
    gfMul expTable logTable (gfMul expTable logTable a b) c =
      gfMul expTable logTable a (gfMul expTable logTable b c) := by
  obtain rfl | ⟨i, rfl⟩ := eq_zero_or_eq_alphaPow a
  · simp only [zero_gfMul]
  obtain rfl | ⟨j, rfl⟩ := eq_zero_or_eq_alphaPow b
  · simp only [zero_gfMul, gfMul_zero]
  simp only [gfMul_alphaPow, xtime_iterate_alphaPow, Function.iterate_add_apply]

theorem gfMul_xor (a b c : Byte) :
    gfMul expTable logTable a (b ^^^ c) = gfMul expTable logTable a b ^^^ gfMul expTable logTable a c := by
  obtain rfl | ⟨i, rfl⟩ := eq_zero_or_eq_alphaPow a
  · simp only [zero_gfMul]
    rfl
  · simp only [gfMul_alphaPow, xtime_iterate_xor]

theorem eq_zero_or_eq_zero_of_gfMul_eq_zero {a b : Byte} (h : gfMul expTable logTable a b = 0) : a = 0 ∨ b = 0 := by
  obtain rfl | ⟨i, rfl⟩ := eq_zero_or_eq_alphaPow a
  · exact .inl rfl
  · rw [gfMul_alphaPow, ← xtime_iterate_zero i] at h
    exact .inr (xtime_injective.iterate i h)

theorem gfMul_two (a : Byte) : gfMul expTable logTable a 2 = xtime a := by
  rw [gfMul_comm]
  exact gfMul_alphaPow 1 a

/-! ## The shift-and-add product -/

/-- One step of the reduction modulo `GF_POLY`: clear bit `i` by adding the polynomial at that bit. -/
def reduceBit (p i : Nat) : Nat := if p.testBit i then p ^^^ (0x11D <<< (i - 8)) else p

/-- The reduction of `shiftAndAdd`. -/
def reduce (p : Nat) : Byte := BitVec.ofNat 8 ([14, 13, 12, 11, 10, 9, 8].foldl reduceBit p)

theorem reduceBit_xor (p q i : Nat) : reduceBit (p ^^^ q) i = reduceBit p i ^^^ reduceBit q i := by
  simp only [reduceBit, Nat.testBit_xor]
  cases p.testBit i <;> cases q.testBit i <;> grind

theorem foldl_reduceBit_xor (bits : List Nat) (p q : Nat) :
    bits.foldl reduceBit (p ^^^ q) = bits.foldl reduceBit p ^^^ bits.foldl reduceBit q := by
  induction bits generalizing p q with
  | nil => rfl
  | cons i bits ih => rw [List.foldl_cons, reduceBit_xor, ih, List.foldl_cons, List.foldl_cons]

theorem reduce_xor (p q : Nat) : reduce (p ^^^ q) = reduce p ^^^ reduce q := by
  rw [reduce, foldl_reduceBit_xor, BitVec.ofNat_xor]
  rfl

/-- Reducing a byte shifted by `i` places is doubling it `i` times. -/
theorem reduce_shiftLeft : ∀ i < 8, ∀ a : Byte, reduce (a.toNat <<< i) = xtime^[i] a := by
  decide +kernel

/-- A function that is additive over xor takes a sum to the sum of its values. -/
theorem apply_foldr_xor {α β : Type} [XorOp α] [XorOp β] {f : α → β} (hf : ∀ x y, f (x ^^^ y) = f x ^^^ f y)
    (term : Nat → α) (zero : α) (l : List Nat) :
    f ((l.map term).foldr (· ^^^ ·) zero) = (l.map fun i => f (term i)).foldr (· ^^^ ·) (f zero) := by
  rw [List.foldr_map, List.foldr_map]
  exact (List.foldr_hom f fun i y => (hf (term i) y).symm).symm

/-- The shift-and-add product of `a` and `b`: the sum of the doublings of `a` that the bits of `b` select. -/
theorem shiftAndAdd_eq_foldr_xtime (a b : Byte) :
    shiftAndAdd a b =
      ((List.range 8).map fun i => if b.getLsbD i then xtime^[i] a else 0).foldr (· ^^^ ·) 0 := by
  have hterm : ∀ i ∈ List.range 8,
      reduce (if b.getLsbD i then a.toNat <<< i else 0) = if b.getLsbD i then xtime^[i] a else 0 := by
    intro i hi
    split
    · exact reduce_shiftLeft i (List.mem_range.1 hi) a
    · rfl
  calc shiftAndAdd a b
      = reduce (((List.range 8).map fun i => if b.getLsbD i then a.toNat <<< i else 0).foldr (· ^^^ ·) 0) := rfl
    _ = _ := by rw [apply_foldr_xor reduce_xor, List.map_congr_left hterm]; rfl

theorem shiftAndAdd_xtime (a b : Byte) : shiftAndAdd (xtime a) b = xtime (shiftAndAdd a b) := by
  have hterm (i : Nat) : xtime (if b.getLsbD i then xtime^[i] a else 0) =
      if b.getLsbD i then xtime^[i] (xtime a) else 0 := by
    split
    · exact Function.Commute.self_iterate xtime i a
    · rfl
  rw [shiftAndAdd_eq_foldr_xtime, shiftAndAdd_eq_foldr_xtime, apply_foldr_xor xtime_xor]
  simp only [hterm]
  rfl

theorem shiftAndAdd_zero_left : ∀ b : Byte, shiftAndAdd 0 b = 0 := by decide +kernel

theorem shiftAndAdd_one_left : ∀ b : Byte, shiftAndAdd 1 b = b := by decide +kernel

theorem shiftAndAdd_alphaPow (i : Nat) (b : Byte) : shiftAndAdd (alphaPow i) b = xtime^[i] b := by
  have hcomm : Function.Semiconj (shiftAndAdd · b) xtime xtime := fun a => shiftAndAdd_xtime a b
  calc shiftAndAdd (xtime^[i] 1) b = xtime^[i] (shiftAndAdd 1 b) := hcomm.iterate_right i 1
    _ = xtime^[i] b := by rw [shiftAndAdd_one_left]

/-- The tables and the bits give the same product: by a power of α, both are doubling iterated. -/
theorem gfMul_eq_shiftAndAdd (a b : Byte) : gfMul expTable logTable a b = shiftAndAdd a b := by
  obtain rfl | ⟨i, rfl⟩ := eq_zero_or_eq_alphaPow a
  · rw [zero_gfMul, shiftAndAdd_zero_left]
  · rw [gfMul_alphaPow, shiftAndAdd_alphaPow]

/-- Settles O28: each law is read off from doubling iterated, the product by a power of α (`gfMul_alphaPow`). -/
theorem fieldMultiplicationLaws : Obligations.FieldMultiplicationLaws :=
  ⟨gfMul_comm _ _, gfMul_assoc, gfMul_xor, fun a => (gfMul_comm _ _ a 1).trans (gfMul_one_left a), gfMul_zero _ _,
    fun _ _ => eq_zero_or_eq_zero_of_gfMul_eq_zero, gfMul_two, gfMul_eq_shiftAndAdd⟩

/-! ## The commands -/

theorem exec_gfMul {s : State} (hrom : s.romOk) (a b : Byte) :
    exec (.gfMul a b) s = .next (gave s (gfMul expTable logTable a b).toNat) := by
  rw [← emit_zext32, ← mul_of_romOk hrom]
  rfl

/-- Settles O27: the unit's product is the one of the tables, which is the shift-and-add product. -/
theorem fieldMultiplyRespondsTheProduct : Obligations.FieldMultiplyRespondsTheProduct := by
  refine ⟨decodesAs_of_rowOf rfl, fun a b s hrom => ?_⟩
  rw [exec_gfMul hrom, gfMul_eq_shiftAndAdd]

theorem exec_gfExp_eArg {i : Byte} (s : State) (hi : 254 < i.toNat) : exec (.gfExp i) s = .next (failed s .eArg) :=
  if_pos hi

theorem exec_gfExp {i : Byte} {s : State} (hrom : s.romOk) (hi : ¬254 < i.toNat) :
    exec (.gfExp i) s = .next (gave s (alphaPow i.toNat).toNat) := by
  rw [← emit_zext32, ← expAt_eq_alphaPow (by omega), ← hrom.1]
  exact if_neg hi

/-- Settles O29: 255 is the one byte past the table, whose entries are the powers of α. -/
theorem exponentReadRespondsThePower : Obligations.ExponentReadRespondsThePower := by
  refine ⟨decodesAs_of_rowOf rfl, fun i s hrom => ?_⟩
  by_cases hi : i.toNat = 255
  · rw [if_pos hi, exec_gfExp_eArg s (by omega)]
  · rw [if_neg hi, exec_gfExp hrom (by omega)]

theorem exec_gfLog_eArg (s : State) : exec (.gfLog 0) s = .next (failed s .eArg) := rfl

theorem exec_gfLog {a : Byte} {s : State} (hrom : s.romOk) (ha : a ≠ 0) :
    exec (.gfLog a) s = .next (gave s (logAt logTable a).toNat) := by
  rw [← emit_zext32, ← hrom.2]
  exact if_neg ha

/-- Settles O30: the logarithm is an exponent of `a` (`alphaPow_logAt`), and the only one, for `LOG` undoes every power
in the range (`logAt_alphaPow`). -/
theorem logarithmReadRespondsTheExponent : Obligations.LogarithmReadRespondsTheExponent := by
  refine ⟨decodesAs_of_rowOf rfl, fun a s hrom => ?_⟩
  by_cases ha : a = 0
  · rw [if_pos ha, ha, exec_gfLog_eArg]
  · rw [if_neg ha]
    obtain ⟨-, hlt⟩ := expAt_logAt a ha
    refine ⟨_, Nat.le_of_lt_succ hlt, exec_gfLog hrom ha, alphaPow_logAt ha, fun j hj hja => ?_⟩
    rw [← hja, logAt_alphaPow (Nat.lt_succ_of_le hj)]

end Sys2Proof.Proofs
end

section
/-! PROOFS. Reed-Solomon: the rolling division of `RS.FEED` and `RS.ENC` (41 R134 to R137), the polynomial identity it
computes (41 R130, R131, R136), and what the commands answer (41 R138 to R140). -/

namespace Sys2Proof.Proofs

open Sys2Proof.Machine Sys2Proof.Claims

/-! ## Addition of polynomials -/

theorem zipWith_xor_comm (a b : List Byte) : List.zipWith (· ^^^ ·) a b = List.zipWith (· ^^^ ·) b a :=
  List.zipWith_comm_of_comm BitVec.xor_comm

theorem zipWith_xor_assoc (a b c : List Byte) :
    List.zipWith (· ^^^ ·) (List.zipWith (· ^^^ ·) a b) c =
      List.zipWith (· ^^^ ·) a (List.zipWith (· ^^^ ·) b c) :=
  List.ext_getElem (by simp [Nat.min_assoc]) fun k _ _ => by simp [BitVec.xor_assoc]

theorem zipWith_xor_zeros_right {g : List Byte} {n : Nat} (h : g.length = n) :
    List.zipWith (· ^^^ ·) g (List.replicate n 0) = g := by
  rw [zipWith_xor_comm, zipWith_xor_zeros h]

/-! ## Rounds of the division -/

theorem feedRound_cons (mul : Byte → Byte → Byte) (gen : List Byte) (top : Byte) (rest : List Byte) (d : Byte) :
    feedRound mul gen (top :: rest) d =
      List.zipWith (· ^^^ ·) (rest ++ [0]) (gen.tail.map fun k => mul k (d ^^^ top)) :=
  List.zipWith_map_right.symm

/-- One place of the remainder after a round, all from the old remainder (41 R135). -/
theorem feedRound_getD (mul : Byte → Byte → Byte) {gen rem : List Byte} (d : Byte) {j : Nat}
    (hlen : gen.length = rem.length + 1) (hj : j < rem.length) :
    (feedRound mul gen rem d).getD j 0 = rem.getD (j + 1) 0 ^^^ mul (gen.getD (j + 1) 0) (d ^^^ rem.getD 0 0) := by
  cases rem with
  | nil => exact absurd hj (Nat.not_lt_zero j)
  | cons top rest =>
    have hshift : (rest ++ [0]).getD j 0 = rest.getD j 0 := by grind
    simp_all [feedRound, List.getD_eq_getElem?_getD]

/-- Feeding the remainder's own bytes: each cancels the top, so the remainder shifts up and a zero comes in. -/
theorem foldl_feedRound_self {mul : Byte → Byte → Byte} (hzero : ∀ k, mul k 0 = 0) (gen rem : List Byte) (k : Nat)
    (hlen : gen.length = rem.length + k + 1) :
    rem.foldl (feedRound mul gen) (rem ++ List.replicate k 0) = List.replicate (rem.length + k) 0 := by
  induction rem generalizing k with
  | nil => simp
  | cons c rem ih =>
    rw [List.length_cons] at hlen
    have hcancel : gen.tail.map (fun g => mul g (c ^^^ c)) = List.replicate (rem.length + k + 1) 0 := by
      simp only [BitVec.xor_self, List.eq_replicate_iff, List.length_map, List.length_tail, List.forall_mem_map]
      exact ⟨by omega, fun g _ => hzero g⟩
    have hround : feedRound mul gen (c :: rem ++ List.replicate k 0) c = rem ++ List.replicate (k + 1) 0 := by
      rw [List.cons_append, feedRound_cons, hcancel, zipWith_xor_zeros_right (by simp; omega), List.append_assoc,
        ← List.replicate_succ']
    rw [List.foldl_cons, hround, ih (k + 1) (by omega), List.length_cons, Nat.add_right_comm, Nat.add_assoc]

/-! ## The polynomial identity -/

theorem polyMul_length (mul : Byte → Byte → Byte) (q : List Byte) {g : List Byte} (hg : g ≠ []) :
    (polyMul mul q g).length = q.length + g.length - 1 := by
  have := List.length_pos_iff.2 hg
  induction q with
  | nil => simp [polyMul]
  | cons f q ih =>
    simp only [polyMul, List.length_zipWith, List.length_append, List.length_map, List.length_replicate,
      List.length_cons, ih]
    omega

/-- One more factor in front of the quotient, for a generator with leading coefficient 1. -/
theorem polyMul_cons_monic {mul : Byte → Byte → Byte} (hone : ∀ k, mul 1 k = k) (f : Byte) (q g : List Byte) :
    polyMul mul (f :: q) (1 :: g) =
      f :: List.zipWith (· ^^^ ·) (g.map (fun k => mul k f) ++ List.replicate q.length 0)
        (polyMul mul q (1 :: g)) := by
  rw [polyMul, List.map_cons, List.cons_append, List.zipWith_cons_cons, hone]
  exact congrArg (· :: _) BitVec.xor_zero

/-- A round of the division, with `n` places below the remainder still to come. -/
theorem feedRound_cons_append_zeros (mul : Byte → Byte → Byte) (lead : Byte) {g rest : List Byte} (top d : Byte)
    (n : Nat) (hlen : rest.length + 1 = g.length) :
    feedRound mul (lead :: g) (top :: rest) d ++ List.replicate n 0 =
      List.zipWith (· ^^^ ·) (rest ++ List.replicate (n + 1) 0)
        (g.map (fun k => mul k (d ^^^ top)) ++ List.replicate n 0) := by
  rw [feedRound_cons, List.tail_cons, List.replicate_succ, List.append_cons rest 0 (List.replicate n 0),
    List.zipWith_append (by simpa using hlen), zipWith_xor_zeros List.length_replicate]

/-- The division of 41 R130: what is fed, with the last remainder below it, is a multiple of the monic generator, plus
the first remainder at the top. -/
theorem exists_quotient_foldl_feedRound {mul : Byte → Byte → Byte} (hone : ∀ k, mul 1 k = k) {g : List Byte}
    (hg : g ≠ []) (bytes : List Byte) : ∀ rem : List Byte, rem.length = g.length →
      ∃ q : List Byte, q.length = bytes.length ∧
        bytes ++ bytes.foldl (feedRound mul (1 :: g)) rem =
          List.zipWith (· ^^^ ·) (polyMul mul q (1 :: g)) (rem ++ List.replicate bytes.length 0) := by
  induction bytes with
  | nil =>
    intro rem hlen
    refine ⟨[], rfl, ?_⟩
    simpa [polyMul] using (zipWith_xor_zeros hlen).symm
  | cons d bytes ih =>
    intro rem hlen
    cases rem with
    | nil => exact absurd (List.length_eq_zero_iff.1 hlen.symm) hg
    | cons top rest =>
      obtain ⟨q, hq, hdiv⟩ := ih (feedRound mul (1 :: g) (top :: rest) d)
        (by rw [feedRound_length _ _ _ _ (by simp [hlen]), hlen])
      refine ⟨(d ^^^ top) :: q, by simp [hq], ?_⟩
      rw [List.foldl_cons, List.cons_append, hdiv, polyMul_cons_monic hone,
        feedRound_cons_append_zeros mul 1 top d _ hlen, hq, List.length_cons, List.cons_append, List.zipWith_cons_cons,
        BitVec.xor_assoc, BitVec.xor_self, BitVec.xor_zero, zipWith_xor_comm, zipWith_xor_assoc, zipWith_xor_comm]

/-- The product of the linear factors has leading coefficient 1 (41 R131). -/
theorem exists_generatorPoly_eq_one_cons (mul : Byte → Byte → Byte) (alpha : Nat → Byte) (n : Nat) :
    ∃ g, generatorPoly mul alpha n = 1 :: g := by
  induction n with
  | zero => exact ⟨[], rfl⟩
  | succ n ih =>
    obtain ⟨g, hg⟩ := ih
    exact ⟨_, by rw [generatorPoly_succ, hg, genRound_cons]⟩

/-! ## The remainder in the state -/

theorem remainder_eq_map_remAt (s : State) : s.remainder = (List.range s.rsN.toNat).map s.remAt := by
  simp [State.remainder, State.remAt, readSeq]

theorem remainder_getD (s : State) (i : Nat) : s.remainder.getD i 0 = if i < s.rsN.toNat then s.remAt i else 0 := by
  rw [remainder_eq_map_remAt]
  split <;> simp_all

theorem generator_getD {s : State} {i : Nat} (hi : i ≤ s.rsN.toNat) : s.generator.getD i 0 = s.genAt i := by
  rw [generator_eq_map_genAt]
  simp [Nat.lt_succ_of_le hi]

/-- Writing as many codewords again replaces the first ones. -/
theorem setRemainder_setRemainder {s : State} (hs : s.Inv) {r r' : List Byte} (h : r.length = r'.length) :
    (s.setRemainder r).setRemainder r' = s.setRemainder r' := by
  have hr := writeSeq_wf blankByte r s.rsRem 0 hs.rsRem_wf
  have hmem : writeSeq blankByte (writeSeq blankByte s.rsRem 0 r) 0 r' = writeSeq blankByte s.rsRem 0 r' :=
    wf_ext _ _ _ (writeSeq_wf _ _ _ _ hr) (writeSeq_wf _ _ _ _ hs.rsRem_wf) fun i => by
      rw [readMem_writeSeq _ _ _ _ _ hr, readMem_writeSeq _ _ _ _ _ hs.rsRem_wf,
        readMem_writeSeq _ _ _ _ _ hs.rsRem_wf, h]
      split <;> rfl
  exact congrArg (fun m => { s with rsRem := m }) hmem

theorem setRemainder_self {s : State} (hs : s.Inv) : s.setRemainder s.remainder = s := by
  have hmem : writeSeq blankByte s.rsRem 0 s.remainder = s.rsRem :=
    wf_ext _ _ _ (writeSeq_wf _ _ _ _ hs.rsRem_wf) hs.rsRem_wf fun i => by
      have hread := setRemainder_remAt s s.remainder i hs.rsRem_wf
      rw [remainder_length, blankByte, remainder_getD] at hread
      split at hread <;> exact hread
  exact congrArg (fun m => { s with rsRem := m }) hmem

/-- A zero remainder: every place below `RS_N`; every place above is as before (41 R134). -/
theorem setRemainder_zeros_remAt {s : State} (hs : s.Inv) (k : Nat) :
    (s.setRemainder (List.replicate s.rsN.toNat 0)).remAt k = if k < s.rsN.toNat then 0 else s.remAt k := by
  rw [setRemainder_remAt s _ k hs.rsRem_wf, List.length_replicate]
  split <;> simp_all

/-! ## The commands -/

theorem inv_gave {s : State} (h : s.Inv) (v : Nat) : (gave s v).Inv := { h with }

theorem gave_setRemainder_remainder {s : State} (hs : s.Inv) {rem : List Byte} (hlen : rem.length = s.rsN.toNat)
    (v : Nat) : (gave (s.setRemainder rem) v).remainder = rem := setRemainder_remainder s rem hs.rsRem_wf hlen

theorem runCommands_cons {i : Instr} {s t : State} (h : exec i s = .next t) (is : List Instr) :
    runCommands (i :: is) s = runCommands is t := by
  simp only [runCommands, h]

section
variable {s : State}

/-- What feeding the bytes to a remainder leaves of it (41 R135). -/
def feedAll (s : State) (rem bytes : List Byte) : List Byte := bytes.foldl (feedRound s.mul s.generator) rem

/-- The codewords of an extent: what feeding its bytes to a zero remainder leaves (41 R137). -/
def codewords (s : State) (base len : BitVec 12) : List Byte :=
  feedAll s (List.replicate s.rsN.toNat 0) (bytesOf s base len)

theorem feedAll_length {rem : List Byte} (hlen : rem.length = s.rsN.toNat) (bytes : List Byte) :
    (feedAll s rem bytes).length = s.rsN.toNat := by
  rw [feedAll, foldl_feedRound_length _ _ _ _ (by rw [generator_length, hlen]), hlen]

theorem codewords_length (s : State) (base len : BitVec 12) : (codewords s base len).length = s.rsN.toNat :=
  feedAll_length List.length_replicate _

/-- One place of the remainder after one byte (41 R135). -/
theorem feedAll_singleton_getD (s : State) (d : Byte) {j : Nat} (hj : j < s.rsN.toNat) :
    (feedAll s s.remainder [d]).getD j 0 =
      s.remainder.getD (j + 1) 0 ^^^ s.mul (s.genAt (j + 1)) (d ^^^ s.remAt 0) := by
  have htop : s.remainder.getD 0 0 = s.remAt 0 := by rw [remainder_getD, if_pos (by omega)]
  rw [← generator_getD (by omega), ← htop]
  exact feedRound_getD _ d (by rw [generator_length, remainder_length]) (by rwa [remainder_length])

theorem exec_rsClr (hn : s.rsN ≠ 0) :
    exec .rsClr s = .next (gave (s.setRemainder (List.replicate s.rsN.toNat 0)) 0) := if_neg hn

theorem exec_rsFeed (hn : s.rsN ≠ 0) (d : Byte) :
    exec (.rsFeed d) s = .next (gave (s.setRemainder (feedAll s s.remainder [d])) 0) := if_neg hn

theorem exec_rsEnc (hn : s.rsN ≠ 0) {base len : BitVec 12} (hext : base.toNat + len.toNat ≤ s.dlen.toNat) :
    exec (.rsEnc base len) s = .next (gave (s.setRemainder (codewords s base len)) s.rsN.toNat) := by
  change execRsEnc base len s = _
  rw [execRsEnc, if_neg hn, extent_ok hext, ← emit_zext32]
  rfl

theorem exec_rsEnc_eRange (hn : s.rsN ≠ 0) {base len : BitVec 12} (hext : ¬base.toNat + len.toNat ≤ s.dlen.toNat) :
    exec (.rsEnc base len) s = .next (failed s .eRange) := by
  change execRsEnc base len s = _
  rw [execRsEnc, if_neg hn, extent_error hext]
  rfl

end

/-- A run of `RS.FEED`s leaves what the fold of the rounds leaves, and each is answered with 0. -/
theorem runCommands_map_rsFeed (bytes : List Byte) : ∀ s : State, s.Inv → s.rsN ≠ 0 →
    runCommands (bytes.map .rsFeed) s = some { s.setRemainder (feedAll s s.remainder bytes) with
      responses := List.replicate bytes.length (.ok 0) ++ s.responses } := by
  induction bytes with
  | nil =>
    intro s hs _
    exact congrArg some (setRemainder_self hs).symm
  | cons d bytes ih =>
    intro s hs hn
    have hlen := feedAll_length (remainder_length s) [d]
    have hset := setRemainder_setRemainder hs (hlen.trans (feedAll_length (remainder_length s) (d :: bytes)).symm)
    rw [List.map_cons, runCommands_cons (exec_rsFeed hn d), ih _ (inv_gave (inv_setRemainder hs hlen) 0) hn,
      gave_setRemainder_remainder hs hlen, ← hset, List.length_cons, List.replicate_succ', List.append_assoc]
    rfl

/-- Whatever the remainder holds, feeding it back leaves zeros (41 R140). -/
theorem exists_runCommands_remainder_zero {s : State} (hs : s.Inv) (hn : s.rsN ≠ 0) :
    ∃ u, runCommands (((List.range s.rsN.toNat).map s.remAt).map .rsFeed) s = some u ∧
      ∀ k, k < s.rsN.toNat → u.remAt k = 0 := by
  have hzero : feedAll s s.remainder s.remainder = List.replicate s.rsN.toNat 0 := by
    have h := foldl_feedRound_self (gfMul_zero expTable logTable) s.generator s.remainder 0
      (by rw [generator_length, remainder_length, Nat.add_zero])
    rwa [← mul_of_romOk hs.rom, List.replicate_zero, List.append_nil, Nat.add_zero, remainder_length] at h
  refine ⟨_, runCommands_map_rsFeed _ s hs hn, fun k hk => ?_⟩
  rw [← remainder_eq_map_remAt, hzero]
  exact (setRemainder_zeros_remAt hs k).trans (if_pos hk)

/-- Settles O32: the write of `RS.CLR` is a zero in each place below `RS_N`. -/
theorem remainderClearZeroesTheRemainder : Obligations.RemainderClearZeroesTheRemainder := by
  refine ⟨decodesAs_of_rowOf rfl, fun s hs => ?_⟩
  by_cases hn : s.rsN = 0
  · rw [if_pos hn]
    exact if_pos hn
  · rw [if_neg hn]
    refine ⟨_, exec_rsClr hn, rfl, fun k => ?_⟩
    rw [gave_remAt, setRemainder_zeros_remAt hs]

/-- Settles O33: the place `j` of one round (`feedAll_singleton_getD`), with a zero coming in at the last place. -/
theorem feedTakesOneDivisionStep : Obligations.FeedTakesOneDivisionStep := by
  refine ⟨decodesAs_of_rowOf rfl, fun d s hs => ?_⟩
  by_cases hn : s.rsN = 0
  · rw [if_pos hn]
    exact if_pos hn
  · rw [if_neg hn]
    refine ⟨_, exec_rsFeed hn d, rfl, fun j => ?_⟩
    rw [gave_remAt, setRemainder_remAt s _ j hs.rsRem_wf, feedAll_length (remainder_length s), ← mul_of_romOk hs.rom]
    by_cases hj : j < s.rsN.toNat
    · rw [if_pos hj, blankByte, feedAll_singleton_getD s d hj, remainder_getD]
      by_cases hnext : j + 1 < s.rsN.toNat
      · rw [if_pos hnext, if_pos hnext]
      · have hlast : j + 1 = s.rsN.toNat := by omega
        rw [if_neg hnext, if_neg hnext, if_pos hlast, hlast]
        exact BitVec.zero_xor
    · rw [if_neg hj, if_neg (by omega), if_neg (by omega)]

/-- Settles O34: both sides fold the rounds over the bytes of the extent, from a zero remainder. -/
theorem encodeIsClearThenFeeds : Obligations.EncodeIsClearThenFeeds := by
  refine ⟨decodesAs_of_rowOf rfl, fun base len s hs => ?_⟩
  by_cases hn : s.rsN = 0
  · rw [if_pos hn]
    exact if_pos hn
  rw [if_neg hn]
  by_cases hext : s.dlen.toNat < base.toNat + len.toNat
  · rw [if_pos hext]
    exact exec_rsEnc_eRange hn (by omega)
  · rw [if_neg hext]
    have hzeros : (List.replicate s.rsN.toNat (0 : Byte)).length = s.rsN.toNat := List.length_replicate
    have hset := setRemainder_setRemainder hs (hzeros.trans (codewords_length s base len).symm)
    refine ⟨_, _, exec_rsEnc hn (by omega), (runCommands_cons (exec_rsClr hn) _).trans
      (runCommands_map_rsFeed _ _ (inv_gave (inv_setRemainder hs hzeros) 0) hn), rfl, ?_⟩
    rw [gave_setRemainder_remainder hs hzeros]
    exact (congrArg (·.rsRem) hset).symm

/-- Settles O35: the division identity from a zero remainder, with the generator that `GenInv` gives. -/
theorem encodeLeavesThePolynomialRemainder : Obligations.EncodeLeavesThePolynomialRemainder := by
  intro base len s hs hgen hn hext
  have hprod : s.generator = linearFactors (gfMul expTable logTable) s.rsN.toNat := by
    have := hs.rsN_le
    have : unitConfig.rsNMax = 30 := rfl
    rw [hgen hn, generatorPoly_eq_linearFactors (by omega)]
  obtain ⟨g, hg⟩ := exists_generatorPoly_eq_one_cons (gfMul expTable logTable) (expAt expTable) s.rsN.toNat
  rw [← hgen hn] at hg
  have hlen : g.length = s.rsN.toNat := by
    have hgenLen := generator_length s
    rw [hg, List.length_cons] at hgenLen
    omega
  have hpos : g ≠ [] := List.ne_nil_of_length_pos (by bv_omega)
  obtain ⟨q, hq, hdiv⟩ := exists_quotient_foldl_feedRound gfMul_one_left hpos (bytesOf s base len)
    (List.replicate s.rsN.toNat 0) (by rw [List.length_replicate, hlen])
  refine ⟨_, q, exec_rsEnc hn hext, hq.trans (by simp [bytesOf]), remainder_length _, ?_⟩
  rw [gave_setRemainder_remainder hs (codewords_length s base len), codewords, feedAll, mul_of_romOk hs.rom, hg, hdiv, ← hprod,
    hg, List.replicate_append_replicate, zipWith_xor_zeros_right]
  rw [polyMul_length _ _ (List.cons_ne_nil _ _), List.length_cons, hlen, hq]
  omega

/-- Settles O36: the codewords are the remainder that stands after `RS.ENC`, so feeding them feeds it back. -/
theorem codewordsFedBackLeaveZero : Obligations.CodewordsFedBackLeaveZero := by
  intro base len s hs hn hext
  have ht := inv_gave (inv_setRemainder hs (codewords_length s base len)) s.rsN.toNat
  obtain ⟨u, hu, hzero⟩ := exists_runCommands_remainder_zero ht hn
  exact ⟨_, u, exec_rsEnc hn hext, hu, hzero⟩

/-- Settles O37: both reads test for a generator first, then the index. -/
theorem reedSolomonReadsRespondTheElement : Obligations.ReedSolomonReadsRespondTheElement := by
  refine ⟨decodesAs_of_rowOf rfl, decodesAs_of_rowOf rfl, fun idx s => ?_⟩
  change execRsRd idx s = _ ∧ execRsGrd idx s = _
  have hN : s.rsN = 0 ↔ s.rsN.toNat = 0 := BitVec.toNat_eq
  simp only [execRsRd, execRsGrd, hN, respond_eq, emit_zext32]
  constructor
  · split
    · rfl
    · split <;> rfl
  · split
    · rfl
    · split <;> rfl

end Sys2Proof.Proofs
end

section
/-! PROOFS. BCH: the divider is linear and leaves a remainder (42 R150). So the two results are words of linear codes,
which gives the laws of 42 R157; the printed tables of 42 R153 and R156 and what the commands answer. -/

namespace Sys2Proof.Proofs

open Sys2Proof.Machine Sys2Proof.Claims

/-! ## The divider -/

/-- One round of `BCHREM`, for the bit position `dg + k` (42 R150). -/
def bchRound (g dg k v : Nat) : Nat := if v.testBit (dg + k) then v ^^^ (g <<< k) else v

theorem bchLoop_succ (g dg k v : Nat) : bchLoop g dg (k + 1) v = bchLoop g dg k (bchRound g dg k v) := rfl

theorem xor_xor_xor_cancel_right (a b c : Nat) : a ^^^ c ^^^ (b ^^^ c) = a ^^^ b := by
  rw [Nat.xor_comm b, Nat.xor_assoc, Nat.xor_xor_cancel_left]

/-- Whether a round takes the divisor off is decided by one bit, and the bits of `a` and `b` add up. -/
theorem bchRound_xor (g dg k a b : Nat) :
    bchRound g dg k (a ^^^ b) = bchRound g dg k a ^^^ bchRound g dg k b := by
  simp only [bchRound, Nat.testBit_xor]
  match a.testBit (dg + k), b.testBit (dg + k) with
  | false, false => rfl
  | false, true => exact Nat.xor_assoc a b (g <<< k)
  | true, false => exact Nat.xor_right_comm a b (g <<< k)
  | true, true => exact (xor_xor_xor_cancel_right a b (g <<< k)).symm

theorem bchLoop_xor (g dg k a b : Nat) : bchLoop g dg k (a ^^^ b) = bchLoop g dg k a ^^^ bchLoop g dg k b := by
  induction k generalizing a b with
  | zero => rfl
  | succ k ih => rw [bchLoop_succ, bchRound_xor, ih, bchLoop_succ, bchLoop_succ]

theorem testBit_eq_false_of_lt_two_pow {v n i : Nat} (hv : v < 2 ^ n) (hi : n ≤ i) : v.testBit i = false :=
  Nat.testBit_lt_two_pow (hv.trans_le (Nat.pow_le_pow_right Nat.two_pos hi))

/-- The loop keeps what is a remainder already. -/
theorem bchLoop_of_lt {dg v : Nat} (hv : v < 2 ^ dg) (g k : Nat) : bchLoop g dg k v = v := by
  induction k with
  | zero => rfl
  | succ k ih =>
    have hround : bchRound g dg k v = v := by
      rw [bchRound, testBit_eq_false_of_lt_two_pow hv (by omega), if_neg Bool.false_ne_true]
    rw [bchLoop_succ, hround, ih]

/-- `g`, read as a polynomial over GF(2), has degree `dg`. -/
def HasDegree (g dg : Nat) : Prop := g.testBit dg = true ∧ g < 2 ^ (dg + 1)

theorem fmtPoly_hasDegree : HasDegree fmtPoly 10 := ⟨by decide, by decide⟩

theorem verPoly_hasDegree : HasDegree verPoly 12 := ⟨by decide, by decide⟩

section
variable {g dg k v : Nat}

/-- A round clears the bit it looks at, and sets none above. -/
theorem bchRound_lt (hg : HasDegree g dg) (hv : v < 2 ^ (dg + (k + 1))) : bchRound g dg k v < 2 ^ (dg + k) := by
  obtain ⟨hlead, hlt⟩ := hg
  refine Nat.lt_pow_two_of_testBit _ fun i hi => ?_
  rw [bchRound]
  rcases Nat.eq_or_lt_of_le hi with rfl | hi
  · split <;> simp_all [Nat.testBit_shiftLeft]
  · have hvi : v.testBit i = false := testBit_eq_false_of_lt_two_pow hv hi
    have hgi : g.testBit (i - k) = false := testBit_eq_false_of_lt_two_pow hlt (by omega)
    split <;> simp [Nat.testBit_shiftLeft, hvi, hgi]

/-- A divisor of degree `dg` leaves nothing from bit `dg` up. -/
theorem bchLoop_lt (hg : HasDegree g dg) (hv : v < 2 ^ (dg + k)) : bchLoop g dg k v < 2 ^ dg := by
  induction k generalizing v with
  | zero => exact hv
  | succ k ih => exact ih (bchRound_lt hg hv)

end

/-! ## The code words -/

/-- The code word of the data `d`, of `k` bits: the data on top and the remainder below (42 R150). -/
def codeWord (g dg k d : Nat) : Nat := d <<< dg ^^^ bchLoop g dg k (d <<< dg)

theorem codeWord_xor (g dg k d e : Nat) : codeWord g dg k (d ^^^ e) = codeWord g dg k d ^^^ codeWord g dg k e := by
  simp only [codeWord, Nat.shiftLeft_xor_distrib, bchLoop_xor]
  ac_rfl

section
variable {g dg k d : Nat}

theorem codeWord_remainder_lt (hg : HasDegree g dg) (hd : d < 2 ^ k) : bchLoop g dg k (d <<< dg) < 2 ^ dg := by
  refine bchLoop_lt hg ?_
  rw [Nat.shiftLeft_eq, Nat.pow_add, Nat.mul_comm]
  exact Nat.mul_lt_mul_of_pos_left hd (Nat.two_pow_pos dg)

/-- The remainder overlaps no data bit, so `xor` and `or` put the word together alike. -/
theorem codeWord_eq_or (hg : HasDegree g dg) (hd : d < 2 ^ k) :
    codeWord g dg k d = d <<< dg ||| bchLoop g dg k (d <<< dg) := by
  refine Nat.eq_of_testBit_eq fun i => ?_
  rw [codeWord, Nat.testBit_xor, Nat.testBit_or, Nat.testBit_shiftLeft]
  by_cases hi : dg ≤ i
  · rw [testBit_eq_false_of_lt_two_pow (codeWord_remainder_lt hg hd) hi, Bool.xor_false, Bool.or_false]
  · simp [hi]

/-- The data part leaves its remainder, and the remainder below leaves itself: they cancel. -/
theorem bchLoop_codeWord (hg : HasDegree g dg) (hd : d < 2 ^ k) : bchLoop g dg k (codeWord g dg k d) = 0 := by
  rw [codeWord, bchLoop_xor, bchLoop_of_lt (codeWord_remainder_lt hg hd), Nat.xor_self]

theorem codeWord_shiftRight (hg : HasDegree g dg) (hd : d < 2 ^ k) : codeWord g dg k d >>> dg = d := by
  rw [codeWord, Nat.shiftRight_xor_distrib, Nat.shiftLeft_shiftRight, Nat.shiftRight_eq_div_pow,
    Nat.div_eq_of_lt (codeWord_remainder_lt hg hd), Nat.xor_zero]

end

/-! ## Distances -/

theorem distance_eq_distance_xor_zero (a b : Nat) : distance a b = distance (a ^^^ b) 0 := by
  simp [distance]

theorem distance_xor_xor (a b c : Nat) : distance (a ^^^ c) (b ^^^ c) = distance a b := by
  rw [distance_eq_distance_xor_zero, xor_xor_xor_cancel_right, ← distance_eq_distance_xor_zero]

/-- The distance of two words of a linear code is the weight of a third. -/
theorem distance_codeWord (g dg k d e : Nat) :
    distance (codeWord g dg k d) (codeWord g dg k e) = distance (codeWord g dg k (d ^^^ e)) 0 := by
  rw [distance_eq_distance_xor_zero, codeWord_xor]

/-- The least weight of a word other than 0 bounds the distances in the code. -/
theorem le_distance_codeWord {g dg k n : Nat} (h : ∀ d, d < 2 ^ k → d ≠ 0 → n ≤ distance (codeWord g dg k d) 0)
    {d e : Nat} (hd : d < 2 ^ k) (he : e < 2 ^ k) (hne : d ≠ e) :
    n ≤ distance (codeWord g dg k d) (codeWord g dg k e) := by
  rw [distance_codeWord]
  exact h _ (Nat.xor_lt_two_pow hd he) (Nat.xor_ne_zero_iff.2 hne)

theorem format_weight : ∀ d, d < 2 ^ 5 → d ≠ 0 → 7 ≤ distance (codeWord fmtPoly 10 5 d) 0 := by decide

theorem version_weight : ∀ d, d < 2 ^ 6 → d ≠ 0 → 8 ≤ distance (codeWord verPoly 12 6 d) 0 := by decide

/-! ## Format and version information -/

theorem formatInfo_eq_codeWord {d : Nat} (hd : d < 32) : formatInfo d = codeWord fmtPoly 10 5 d ^^^ fmtXor :=
  congrArg (· ^^^ fmtXor) (codeWord_eq_or fmtPoly_hasDegree hd).symm

theorem versionInfo_eq_codeWord {v : Nat} (hv : v < 64) : versionInfo v = codeWord verPoly 12 6 v :=
  (codeWord_eq_or verPoly_hasDegree hv).symm

theorem formatInfo_eq_formatTable : ∀ d, d < 32 → formatInfo d = formatTable.getD d 0 := by decide

theorem versionInfo_add_eq_versionTable : ∀ i, i < 34 → versionInfo (7 + i) = versionTable.getD i 0 := by decide

/-- Settles O38: the response is `formatInfo`, whose 32 values are the table. -/
theorem formatInformationIsThePrintedTable : Obligations.FormatInformationIsThePrintedTable := by
  refine ⟨decodesAs_of_rowOf rfl, fun d5 s => ?_⟩
  rw [← formatInfo_eq_formatTable d5.toNat d5.isLt]
  rfl

/-- Settles O39: the versions that pass the check are the 34 of the table. -/
theorem versionInformationIsThePrintedTable : Obligations.VersionInformationIsThePrintedTable := by
  refine ⟨decodesAs_of_rowOf rfl, fun v s => ?_⟩
  change execBchVer v s = _
  by_cases hv : v.toNat < 7 ∨ 40 < v.toNat
  · rw [execBchVer, if_pos hv, if_pos hv]
    rfl
  · rw [execBchVer, if_neg hv, if_neg hv, ← versionInfo_add_eq_versionTable _ (by omega),
      Nat.add_sub_cancel' (by omega)]
    rfl

/-- Settles O40: both results are code words, the format information with a constant xored in; the distances come from
the least weights. -/
theorem bchLaws : Obligations.BchLaws := by
  refine ⟨fun d hd => ?_, fun v _ hv => ?_, fun d e hd he hne => ?_, fun v u _ hv _ hu hne => ?_,
    fun a b g dg top => bchLoop_xor g dg (top + 1 - dg) a b⟩
  · have hword : formatInfo d ^^^ 0x5412 = codeWord fmtPoly 10 5 d := by
      rw [formatInfo_eq_codeWord hd]
      exact Nat.xor_xor_cancel_right _ _
    rw [hword]
    exact ⟨bchLoop_codeWord fmtPoly_hasDegree hd, codeWord_shiftRight fmtPoly_hasDegree hd⟩
  · have hv : v < 2 ^ 6 := by omega
    rw [versionInfo_eq_codeWord hv]
    exact ⟨bchLoop_codeWord verPoly_hasDegree hv, codeWord_shiftRight verPoly_hasDegree hv⟩
  · rw [formatInfo_eq_codeWord hd, formatInfo_eq_codeWord he, distance_xor_xor]
    exact le_distance_codeWord format_weight hd he hne
  · have hv : v < 2 ^ 6 := by omega
    have hu : u < 2 ^ 6 := by omega
    rw [versionInfo_eq_codeWord hv, versionInfo_eq_codeWord hu]
    exact le_distance_codeWord version_weight hv hu hne

end Sys2Proof.Proofs
end

section
/-! PROOFS. The value buffer as integers, what a checksum over it answers, and what the commands over an extent answer:
the laws that the barcode families share (43 R170, R176; 44 R187; 45 R208, R210, R213). -/

namespace Sys2Proof.Proofs

open Sys2Proof.Machine Sys2Proof.Claims

/-! ## Checksums -/

theorem map_toNat_values (s : State) : s.values.map BitVec.toNat = (List.range s.vlen.toNat).map (valueNat s) := by
  simp [State.values, readSeq, valueNat, State.valueAt]

/-- A property of every value in the buffer, by index. -/
theorem forall_mem_values {s : State} {p : Nat → Prop} :
    (∀ v ∈ s.values, p v.toNat) ↔ ∀ i, i < s.vlen.toNat → p (valueNat s i) := by
  have h := map_toNat_values s
  calc (∀ v ∈ s.values, p v.toNat)
      ↔ ∀ n ∈ s.values.map BitVec.toNat, p n := by rw [List.forall_mem_map]
    _ ↔ ∀ i, i < s.vlen.toNat → p (valueNat s i) := by simp [h]

theorem checksumValues_eShape {s : State} (h : s.vlen.toNat = 0) (top : Nat) (sum : List Nat → Nat) :
    checksumValues s top sum = .next (failed s .eShape) := if_pos (BitVec.eq_of_toNat_eq h)

/-- A checksum over a buffer whose values are admitted responds the sum of the values (43 R176, 44 R187, 45 R210). -/
theorem checksumValues_gave {s : State} {top : Nat} (h0 : s.vlen.toNat ≠ 0)
    (h : ∀ i, i < s.vlen.toNat → valueNat s i ≤ top) (sum : List Nat → Nat) :
    checksumValues s top sum = .next (gave s (sum ((List.range s.vlen.toNat).map (valueNat s)))) := by
  rw [← map_toNat_values]
  obtain ⟨hz, -⟩ | ⟨-, ⟨v, hv, hlt⟩, -⟩ | ⟨-, -, hok⟩ := checksumValues_cases s top sum
  · exact absurd (congrArg BitVec.toNat hz) h0
  · exact absurd (forall_mem_values (p := (· ≤ top)).2 h v hv) (Nat.not_le_of_lt hlt)
  · exact hok

theorem checksumValues_eChar {s : State} {top i : Nat} (hi : i < s.vlen.toNat) (h : top < valueNat s i)
    (sum : List Nat → Nat) : checksumValues s top sum = .next (failed s .eChar) := by
  obtain ⟨hz, -⟩ | ⟨-, -, hfail⟩ | ⟨-, hle, -⟩ := checksumValues_cases s top sum
  · rw [hz] at hi
    exact absurd hi (Nat.not_lt_zero i)
  · exact hfail
  · exact absurd (forall_mem_values (p := (· ≤ top)).1 hle i hi) (Nat.not_le_of_lt h)

/-- A list by index, with its indices: the form of the weighted sums. -/
theorem map_zipIdx_map_range {α β : Type} (f : Nat → α) (g : α × Nat → β) (n : Nat) :
    ((List.range n).map f).zipIdx.map g = (List.range n).map fun i => g (f i, i) :=
  List.ext_getElem (by simp) fun k _ _ => by simp

/-! ## Extents -/

theorem extentBytes_eq_bytesOf (s : State) (base len : BitVec 12) : s.extentBytes base len = bytesOf s base len := rfl

section
variable {s : State} {base len : BitVec 12}

theorem checkExtent_eRange (h : s.dlen.toNat < base.toNat + len.toNat) (check : List Byte → Except FailCode Word) :
    checkExtent s base len check = .next (failed s .eRange) := by
  rw [checkExtent, extent_error (Nat.not_le_of_lt h)]
  rfl

theorem checkExtent_error {check : List Byte → Except FailCode Word} {e : FailCode}
    (h : ¬s.dlen.toNat < base.toNat + len.toNat) (he : check (bytesOf s base len) = .error e) :
    checkExtent s base len check = .next (failed s e) := by
  rw [← extentBytes_eq_bytesOf] at he
  simp only [checkExtent, extent_ok (Nat.le_of_not_lt h), he]
  rfl

theorem checkExtent_ok {check : List Byte → Except FailCode Word} {n : Nat}
    (h : ¬s.dlen.toNat < base.toNat + len.toNat) (hn : check (bytesOf s base len) = .ok (natWord n)) :
    checkExtent s base len check = .next (gave s n) := by
  rw [← extentBytes_eq_bytesOf] at hn
  simp only [checkExtent, extent_ok (Nat.le_of_not_lt h), hn]
  rfl

theorem sequenceExtent_eRange (h : s.dlen.toNat < base.toNat + len.toNat)
    (seq : List Byte → Except FailCode (List Byte)) :
    sequenceExtent s base len seq = .next (failed s .eRange) := by
  rw [sequenceExtent, extent_error (Nat.not_le_of_lt h)]
  rfl

theorem sequenceExtent_error {seq : List Byte → Except FailCode (List Byte)} {e : FailCode}
    (h : ¬s.dlen.toNat < base.toNat + len.toNat) (he : seq (bytesOf s base len) = .error e) :
    sequenceExtent s base len seq = .next (failed s e) := by
  rw [← extentBytes_eq_bytesOf] at he
  simp only [sequenceExtent, extent_ok (Nat.le_of_not_lt h), he]
  rfl

theorem sequenceExtent_ok {seq : List Byte → Except FailCode (List Byte)} {out : List Byte}
    (h : ¬s.dlen.toNat < base.toNat + len.toNat) (hout : seq (bytesOf s base len) = .ok out) :
    sequenceExtent s base len seq = .next (gave (s.setValues out) out.length) := by
  rw [← extentBytes_eq_bytesOf] at hout
  simp only [sequenceExtent, extent_ok (Nat.le_of_not_lt h), hout]
  rfl

end

theorem setValues_vlen_toNat (s : State) {out : List Byte} (h : out.length ≤ vbufSize) :
    (s.setValues out).vlen.toNat = out.length := by
  rw [State.setValues_vlen, BitVec.toNat_ofNat, Nat.mod_eq_of_lt (Nat.lt_of_le_of_lt h (by decide))]

theorem discard_error {seq : List Byte → Except FailCode (List Byte)} {bytes : List Byte} {e : FailCode}
    (h : seq bytes = .error e) (count : Word) : Machine.discard seq count bytes = .error e := by
  simp only [Machine.discard, h]

theorem discard_ok {seq : List Byte → Except FailCode (List Byte)} {bytes out : List Byte}
    (h : seq bytes = .ok out) (count : Word) : Machine.discard seq count bytes = .ok count := by
  simp only [Machine.discard, h]

end Sys2Proof.Proofs
end

section
/-! PROOFS. Code128 (43 R170, R176): the index loop of the rule is the model's scan, one equation per kind of round; the
check is the weighted sum. -/

namespace Sys2Proof.Proofs

open Sys2Proof.Machine Sys2Proof.Claims

/-! ## Code sets and their letters -/

/-- The selector letter of a code set, by which the loop of 43 R170 names it. -/
def letter : CodeSet → Byte
  | .a => 65
  | .b => 66
  | .c => 67

theorem letter_eq (set : CodeSet) : letter set = 65 ∨ letter set = 66 ∨ letter set = 67 := by
  cases set <;> decide

theorem letter_inj {set target : CodeSet} : letter target = letter set ↔ target = set := by
  cases set <;> cases target <;> decide

theorem selector_eq_some {e : Byte} {set : CodeSet} (h : selector e = some set) : e = letter set := by
  simp only [selector] at h
  split_ifs at h <;> cases h <;> assumption

theorem selector_letter (set : CodeSet) : selector (letter set) = some set := by
  cases set <;> rfl

theorem selector_eq_none {e : Byte} : selector e = none ↔ ¬(e = 65 ∨ e = 66 ∨ e = 67) := by
  simp only [selector]
  split_ifs <;> simp_all

theorem startValue_letter (set : CodeSet) : startValue (letter set) = unitConfig.c128Start set := by
  cases set <;> rfl

theorem switchValue_letter (set : CodeSet) : switchValue (letter set) = unitConfig.c128Switch set := by
  cases set <;> rfl

/-- The value of a digit pair, over the integers as the rule words it. -/
theorem pairValue_eq (ch ch2 : Byte) : pairValue ch ch2 =
    if ch.toNat < 48 ∨ 57 < ch.toNat ∨ ch2.toNat < 48 ∨ 57 < ch2.toNat then none
    else some (BitVec.ofNat 8 (10 * (ch.toNat - 48) + (ch2.toNat - 48))) := by
  unfold pairValue
  by_cases hout : ch.toNat < 48 ∨ 57 < ch.toNat ∨ ch2.toNat < 48 ∨ 57 < ch2.toNat
  · rw [if_pos hout, if_neg]
    simp only [isDigit, Bool.and_eq_true, decide_eq_true_eq]
    omega
  · rw [if_neg hout, if_pos]
    · congr 1
      bv_omega
    · simp only [isDigit, Bool.and_eq_true, decide_eq_true_eq]
      omega

/-! ## One round of the loop, told by the bytes from index `p` on -/

/-- The scan puts each value in front of the rest, the loop puts it behind what it has. -/
theorem elim_eq_map_consValue {rest : Except FailCode (List Byte)} {out : List Byte}
    {next : Byte → Except FailCode (List Byte)} (h : ∀ x, next x = rest.map (out ++ [x] ++ ·)) (v : Option Byte) :
    v.elim (.error .eChar) next = (consValue v rest).map (out ++ ·) := by
  cases v with
  | none => rfl
  | some x =>
    rw [Option.elim_some, h]
    cases rest <;> simp [consValue, Except.map]

section
variable {s tail : List Byte} {p : Nat} {ch e : Byte}

theorem length_of_drop_eq_cons (h : s.drop p = ch :: tail) : s.length = p + 1 + tail.length := by
  have hlen := congrArg List.length h
  rw [List.length_drop, List.length_cons] at hlen
  omega

theorem getD_of_drop_eq_cons (h : s.drop p = ch :: tail) : s.getD p 0 = ch := by
  rw [List.getD_eq_getElem?_getD, ← Nat.add_zero p, ← List.getElem?_drop, h]
  rfl

theorem drop_succ_of_drop_eq_cons (h : s.drop p = ch :: tail) : s.drop (p + 1) = tail := by
  rw [← List.drop_drop, h]
  rfl

/-- What a round reads of two bytes that are left. -/
theorem reads_of_drop_eq_cons_cons (h : s.drop p = ch :: e :: tail) :
    s.getD p 0 = ch ∧ s.getD (p + 1) 0 = e ∧ p + 1 < s.length := by
  refine ⟨getD_of_drop_eq_cons h, getD_of_drop_eq_cons (drop_succ_of_drop_eq_cons h), ?_⟩
  rw [length_of_drop_eq_cons h, List.length_cons]
  omega

variable (fuel : Nat) (out : List Byte)

theorem loop128_of_drop_eq_nil (h : s.drop p = []) (set : Byte) : loop128 s (fuel + 1) p set out = .ok out := by
  simp [loop128, List.drop_eq_nil_iff.1 h]

/-- A brace with nothing behind it. -/
theorem loop128_brace_nil (h : s.drop p = [brace]) (set : Byte) :
    loop128 s (fuel + 1) p set out = .error .eEsc := by
  have hlen := length_of_drop_eq_cons h
  simp only [loop128, getD_of_drop_eq_cons h]
  rw [if_neg (by omega), if_pos ⟨rfl, by simp [hlen]⟩]

/-- A selector: of another set it switches, of the active set it fails. -/
theorem loop128_selector {set target : CodeSet} (h : s.drop p = brace :: letter target :: tail) :
    loop128 s (fuel + 1) p (letter set) out =
      if target = set then .error .eEsc
      else loop128 s fuel (p + 2) (letter target) (out ++ [unitConfig.c128Switch target]) := by
  obtain ⟨hch, he, hlen⟩ := reads_of_drop_eq_cons_cons h
  simp only [loop128, hch, he, letter_inj, switchValue_letter]
  rw [if_neg (by omega), if_neg (by omega), if_pos ⟨rfl, letter_eq target⟩]

/-- A brace before neither a selector letter nor a brace. -/
theorem loop128_badEscape (h : s.drop p = brace :: e :: tail) (hsel : selector e = none) (he : e ≠ brace)
    (set : Byte) : loop128 s (fuel + 1) p set out = .error .eEsc := by
  obtain ⟨hch, hnext, hlen⟩ := reads_of_drop_eq_cons_cons h
  have hletter := selector_eq_none.1 hsel
  simp only [loop128, hch, hnext]
  rw [if_neg (by omega), if_neg (by omega), if_neg (fun hc => hletter hc.2), if_pos ⟨rfl, he⟩]

/-- An escaped brace, which only set B has. -/
theorem loop128_braces (h : s.drop p = brace :: brace :: tail) (set : CodeSet) :
    loop128 s (fuel + 1) p (letter set) out =
      (singleValue set brace).elim (.error .eChar) fun x => loop128 s fuel (p + 2) (letter set) (out ++ [x]) := by
  obtain ⟨hch, hnext, hlen⟩ := reads_of_drop_eq_cons_cons h
  simp only [loop128, hch, hnext]
  rw [if_neg (by omega), if_neg (by omega), if_neg (by decide), if_neg (by decide)]
  cases set <;> rfl

/-- One data byte in set A or B. -/
theorem loop128_single (h : s.drop p = ch :: tail) (hch : ch ≠ brace) {set : CodeSet} (hset : set ≠ .c) :
    loop128 s (fuel + 1) p (letter set) out =
      (singleValue set ch).elim (.error .eChar) fun x => loop128 s fuel (p + 1) (letter set) (out ++ [x]) := by
  have hlen := length_of_drop_eq_cons h
  have hb : ch ≠ 123 := hch
  simp only [loop128, getD_of_drop_eq_cons h, hb, false_and, if_false]
  rw [if_neg (by omega)]
  cases set with
  | a =>
    by_cases h31 : ch.toNat ≤ 31
    · simp [letter, singleValue, h31]
    · by_cases h95 : ch.toNat ≤ 95 <;> simp [letter, singleValue, h31, h95]
  | b => by_cases hin : 32 ≤ ch.toNat ∧ ch.toNat ≤ 127 <;> simp [letter, singleValue, hin]
  | c => exact absurd rfl hset

/-- Set C with one byte left. -/
theorem loop128_lone_byte (h : s.drop p = [ch]) (hch : ch ≠ brace) :
    loop128 s (fuel + 1) p (letter .c) out = .error .eChar := by
  have hlen := length_of_drop_eq_cons h
  have hb : ch ≠ 123 := hch
  simp only [loop128, getD_of_drop_eq_cons h, hb, false_and, if_false]
  simp [letter, hlen]

/-- Two data bytes in set C. -/
theorem loop128_pair {ch2 : Byte} (h : s.drop p = ch :: ch2 :: tail) (hch : ch ≠ brace) :
    loop128 s (fuel + 1) p (letter .c) out =
      (pairValue ch ch2).elim (.error .eChar) fun x => loop128 s fuel (p + 2) (letter .c) (out ++ [x]) := by
  obtain ⟨hread, hnext, hlen⟩ := reads_of_drop_eq_cons_cons h
  have hb : ch ≠ 123 := hch
  simp only [loop128, hread, hnext, hb, false_and, if_false, pairValue_eq]
  rw [if_neg (by omega), if_neg (by decide), if_neg (by decide), if_neg (by omega)]
  split <;> rfl

end

/-! ## The whole loop -/

/-- The loop from index `p` on is the scan of the bytes from there on, behind what is put out before; fuel more than the
bytes left is enough. -/
theorem loop128_eq_scan128 (s : List Byte) (fuel : Nat) : ∀ (p : Nat) (set : CodeSet) (out : List Byte),
    s.length < p + fuel →
      loop128 s fuel p (letter set) out = (scan128 unitConfig set (s.drop p)).map (out ++ ·) := by
  induction fuel with
  | zero =>
    intro p set out hfuel
    rw [List.drop_eq_nil_of_le (i := p) (Nat.le_of_lt hfuel)]
    simp [loop128, scan128, Except.map]
  | succ fuel ih =>
    intro p set out hfuel
    have hone {ch : Byte} {tail : List Byte} (h : s.drop p = ch :: tail) (set : CodeSet) (x : Byte) :
        loop128 s fuel (p + 1) (letter set) (out ++ [x]) = (scan128 unitConfig set tail).map (out ++ [x] ++ ·) := by
      rw [ih _ _ _ (by omega), drop_succ_of_drop_eq_cons h]
    have htwo {ch e : Byte} {rest : List Byte} (h : s.drop p = ch :: e :: rest) (set : CodeSet) (x : Byte) :
        loop128 s fuel (p + 2) (letter set) (out ++ [x]) = (scan128 unitConfig set rest).map (out ++ [x] ++ ·) := by
      rw [ih _ _ _ (by omega), drop_succ_of_drop_eq_cons (drop_succ_of_drop_eq_cons h)]
    generalize hdrop : s.drop p = bytes at *
    fun_cases scan128 unitConfig set bytes with
    | case1 =>
      rw [loop128_of_drop_eq_nil fuel out hdrop]
      simp [Except.map]
    | case2 => exact loop128_brace_nil fuel out hdrop _
    | case3 _ e rest hsel =>
      cases selector_eq_some hsel
      rw [loop128_selector fuel out hdrop, if_pos rfl]
      rfl
    | case4 _ e rest target hsel hne =>
      cases selector_eq_some hsel
      rw [loop128_selector fuel out hdrop, if_neg hne]
      exact elim_eq_map_consValue (htwo rfl target) (some (unitConfig.c128Switch target))
    | case5 _ rest =>
      rw [loop128_braces fuel out hdrop]
      exact elim_eq_map_consValue (htwo rfl set) _
    | case6 _ e rest hsel he => exact loop128_badEscape fuel out hdrop hsel he _
    | case7 ch tail hch =>
      rw [loop128_single fuel out hdrop hch (by decide)]
      exact elim_eq_map_consValue (hone rfl .a) _
    | case8 ch tail hch =>
      rw [loop128_single fuel out hdrop hch (by decide)]
      exact elim_eq_map_consValue (hone rfl .b) _
    | case9 ch hch => exact loop128_lone_byte fuel out hdrop hch
    | case10 ch hch ch2 rest =>
      rw [loop128_pair fuel out hdrop hch]
      exact elim_eq_map_consValue (htwo rfl .c) _

/-! ## The sequencer and the check -/

/-- The loop after the leading selector, if there is one, is the whole sequencer. -/
theorem loop128_eq_sequence128 {bytes : List Byte} {p : Nat} {set : CodeSet} (hne : bytes ≠ [])
    (hlead : leading128 unitConfig bytes = (set, bytes.drop p)) :
    loop128 bytes (bytes.length + 1) p (letter set) [startValue (letter set)] = sequence128 unitConfig bytes := by
  rw [sequence128, if_neg hne, hlead, startValue_letter, loop128_eq_scan128 _ _ _ _ _ (by omega)]
  exact (elim_eq_map_consValue (out := []) (fun _ => rfl) (some (unitConfig.c128Start set))).trans
    (by cases consValue (some (unitConfig.c128Start set)) (scan128 unitConfig set (bytes.drop p)) <;> rfl)

theorem leading128_selector {set : CodeSet} (rest : List Byte) :
    leading128 unitConfig (brace :: letter set :: rest) = (set, rest) := by
  simp [leading128, selector_letter]

/-- The test of 43 R170 for a leading selector. -/
theorem leadingSelector_iff {bytes : List Byte} :
    (2 ≤ bytes.length ∧ bytes.getD 0 0 = 123 ∧ (bytes.getD 1 0 = 65 ∨ bytes.getD 1 0 = 66 ∨ bytes.getD 1 0 = 67)) ↔
      ∃ set rest, bytes = brace :: letter set :: rest := by
  constructor
  · rintro ⟨hlen, hbrace, hletter⟩
    match bytes with
    | b0 :: b1 :: rest =>
      obtain rfl : b0 = brace := hbrace
      obtain rfl | rfl | rfl : b1 = 65 ∨ b1 = 66 ∨ b1 = 67 := hletter
      · exact ⟨.a, rest, rfl⟩
      · exact ⟨.b, rest, rfl⟩
      · exact ⟨.c, rest, rfl⟩
  · rintro ⟨set, rest, rfl⟩
    exact ⟨by simp, rfl, letter_eq set⟩

theorem leading128_default {bytes : List Byte} (h : ¬∃ set rest, bytes = brace :: letter set :: rest) :
    leading128 unitConfig bytes = (.b, bytes) := by
  fun_cases leading128 unitConfig bytes with
  | case1 b1 rest set hsel => exact absurd ⟨set, rest, by rw [selector_eq_some hsel]⟩ h
  | case2 | case3 | case4 => rfl

theorem sequence128Of_eq (bytes : List Byte) : sequence128Of bytes = sequence128 unitConfig bytes := by
  rw [sequence128Of]
  by_cases hne : bytes = []
  · subst hne
    rfl
  rw [if_neg (mt List.eq_nil_of_length_eq_zero hne)]
  split
  next hlead =>
    obtain ⟨set, rest, rfl⟩ := leadingSelector_iff.1 hlead
    exact loop128_eq_sequence128 hne (leading128_selector rest)
  next hlead =>
    exact loop128_eq_sequence128 (p := 0) (set := .b) hne (leading128_default (mt leadingSelector_iff.2 hlead))

theorem checksum128_map_valueNat {s : State} (h0 : s.vlen.toNat ≠ 0) :
    checksum128 ((List.range s.vlen.toNat).map (valueNat s)) = code128Check s := by
  obtain ⟨n, hn⟩ := Nat.exists_eq_succ_of_ne_zero h0
  rw [checksum128, code128Check, map_zipIdx_map_range, hn, List.range_succ_eq_map]
  simp [Function.comp_def]

/-! ## The commands -/

theorem exec_c128Seq (base len : BitVec 12) (s : State) :
    exec (.c128Seq base len) s = sequenceExtent s base len (sequence128 unitConfig) := rfl

theorem exec_valC128 (base len : BitVec 12) (s : State) :
    exec (.valC128 base len) s = checkExtent s base len (Machine.discard (sequence128 unitConfig) 1) := rfl

theorem exec_c128Chk (s : State) : exec .c128Chk s = checksumValues s 105 checksum128 := rfl

/-- Settles O41: the loop is the scan that both commands run; the scan's output fits the buffer. -/
theorem code128SequencerRunsItsLoop : Obligations.Code128SequencerRunsItsLoop := by
  refine ⟨decodesAs_of_rowOf rfl, decodesAs_of_rowOf rfl, fun base len s hs => ?_⟩
  rw [exec_c128Seq, exec_valC128]
  by_cases h : s.dlen.toNat < base.toNat + len.toNat
  · rw [if_pos h]
    exact ⟨sequenceExtent_eRange h _, checkExtent_eRange h _⟩
  rw [if_neg h, sequence128Of_eq]
  cases hseq : sequence128 unitConfig (bytesOf s base len) with
  | error e => exact ⟨sequenceExtent_error h hseq, checkExtent_error h (discard_error hseq 1)⟩
  | ok out =>
    have hfit : out.length ≤ vbufSize :=
      Nat.le_trans (sequence128_length hseq) (extentBytes_length_lt s base len)
    exact ⟨checkExtent_ok h (discard_ok hseq 1), _, sequenceExtent_ok h hseq, rfl, setValues_vlen_toNat s hfit,
      fun k => setValues_valueAt s out k hs.vbuf_wf⟩

/-- Settles O42: over the integers by index, the check is the weighted sum. -/
theorem code128CheckIsTheWeightedSum : Obligations.Code128CheckIsTheWeightedSum := by
  refine ⟨decodesAs_of_rowOf rfl, fun s => ?_⟩
  rw [exec_c128Chk]
  by_cases h0 : s.vlen.toNat = 0
  · rw [if_pos h0]
    exact checksumValues_eShape h0 105 checksum128
  · rw [if_neg h0, ← checksum128_map_valueNat h0]
    exact ⟨fun h => checksumValues_gave h0 h checksum128, fun i hi h => checksumValues_eChar hi h checksum128⟩

end Sys2Proof.Proofs
end

section
/-! PROOFS. Mod-10 and UPC/EAN (44 R186 to R198, 45 R218): the check digit by index and its law, the parity patterns,
and the UPC-E algorithm over integers as the model's checks and expansion over bytes. -/

namespace Sys2Proof.Proofs

open Sys2Proof.Machine Sys2Proof.Claims

/-! ## The mod-10 check digit -/

theorem mod10_le (ds : List Nat) : mod10 ds ≤ 9 := by
  rw [mod10]
  omega

theorem mod10Sum_add_mod10 (ds : List Nat) : (mod10Sum ds + mod10 ds) % 10 = 0 := by
  rw [mod10]
  omega

/-- One more digit on the right shifts every weight by one place, which swaps the 3s and the 1s. -/
theorem weightedSum_concat (ds : List Nat) (c : Nat) :
    ((ds ++ [c]).reverse.zipIdx.map fun x => (if x.2 % 2 = 0 then 1 else 3) * x.1).sum = c + mod10Sum ds := by
  have hswap (i : Nat) : (if (i + 1) % 2 = 0 then 1 else 3) = if i % 2 = 0 then 3 else 1 := by
    split <;> split <;> omega
  rw [List.reverse_concat, List.zipIdx_cons, List.zipIdx_succ, mod10Sum]
  simp only [List.map_cons, List.map_map, Function.comp_def, hswap, List.sum_cons]
  rw [if_pos trivial, Nat.one_mul]

/-- Settles O44: a sum completed to a multiple of 10, told from the check digit on. -/
theorem mod10DigitCompletesTheSum : Obligations.Mod10DigitCompletesTheSum := fun ds =>
  ⟨mod10_le ds, mod10Sum_add_mod10 ds, by rw [weightedSum_concat, Nat.add_comm]⟩

/-- Counting the digits by index from the right end is reversing them (44 R186). -/
theorem mod10_map_range (m : Nat) (d : Nat → Nat) : mod10 ((List.range m).map d) = mod10Of m d := by
  have hrev : ((List.range m).map d).reverse = (List.range m).map fun k => d (m - 1 - k) :=
    List.ext_getElem (by simp) fun k _ _ => by simp
  rw [mod10, mod10Of, mod10Sum, hrev, map_zipIdx_map_range]

theorem exec_m10Chk (s : State) : exec .m10Chk s = checksumValues s 9 mod10 := rfl

/-- Settles O43: over the buffer by index, the check is `MOD10`. -/
theorem mod10CheckIsTheRightAnchoredSum : Obligations.Mod10CheckIsTheRightAnchoredSum := by
  refine ⟨decodesAs_of_rowOf rfl, fun s => ?_⟩
  rw [exec_m10Chk]
  by_cases h0 : s.vlen.toNat = 0
  · rw [if_pos h0]
    exact checksumValues_eShape h0 9 mod10
  · rw [if_neg h0, ← mod10_map_range]
    exact ⟨fun h => checksumValues_gave h0 h mod10, fun i hi h => checksumValues_eChar hi h mod10⟩

/-! ## The parity patterns -/

theorem ean13ParityDefault_toNat (d : BitVec 4) : (ean13ParityDefault d).toNat =
    [0x00, 0x0B, 0x0D, 0x0E, 0x13, 0x19, 0x1C, 0x15, 0x16, 0x1A].getD d.toNat 0 :=
  (List.getD_map (f := BitVec.toNat) ..).symm

theorem upceParityDefault_toNat (d : BitVec 4) : (upceParityDefault d).toNat =
    [0x38, 0x34, 0x32, 0x31, 0x2C, 0x26, 0x23, 0x2A, 0x29, 0x25].getD d.toNat 0 :=
  (List.getD_map (f := BitVec.toNat) ..).symm

/-- What a parity selector answers, for any table (44 R196, R198). -/
theorem paritySelector_eq (d : BitVec 4) (s : State) (table : BitVec 4 → BitVec 6) :
    (if 9 < d.toNat then fail s .eArg else respond s (zext32 (table d))) =
      .next (if 9 < d.toNat then failed s .eArg else gave s (table d).toNat) := by
  split
  · rfl
  · rw [respond_eq, emit_zext32]

/-- Settles O46: both commands are the same selector, each on its own table. -/
theorem paritySelectorsRespondThePattern : Obligations.ParitySelectorsRespondThePattern := by
  refine ⟨decodesAs_of_rowOf rfl, decodesAs_of_rowOf rfl, fun d s => ⟨?_, ?_⟩⟩
  · rw [← ean13ParityDefault_toNat]
    exact paritySelector_eq d s ean13ParityDefault
  · rw [← upceParityDefault_toNat]
    exact paritySelector_eq d s upceParityDefault

/-! ## Digits -/

theorem isDigit_iff {b : Byte} : isDigit b = true ↔ 48 ≤ b.toNat ∧ b.toNat ≤ 57 := by
  simp [isDigit]

theorem any_not_digit (bytes : List Byte) :
    (bytes.any fun b => b.toNat < 48 || 57 < b.toNat) = !bytes.all isDigit := by
  rw [List.not_all_eq_any_not]
  exact congrArg bytes.any (funext fun b => by simp [isDigit, ← decide_not])

/-- The value of an ASCII digit, as a byte and as an integer. -/
theorem toNat_sub_48 {b : Byte} (h : isDigit b = true) : (b - 48).toNat = b.toNat - 48 := by
  have hb := isDigit_iff.1 h
  bv_omega

/-- The digit at an index, read before or after the bytes are turned into values; past the end both are 0. -/
theorem getD_map_sub_48 {bytes : List Byte} (h : bytes.all isDigit = true) (k : Nat) :
    (bytes.getD k 0).toNat - 48 = ((bytes.map (· - 48)).getD k 0).toNat := by
  simp only [List.getD_eq_getElem?_getD, List.getElem?_map]
  cases hk : bytes[k]? with
  | none => rfl
  | some b => exact (toNat_sub_48 (List.all_eq_true.1 h b (List.mem_of_getElem? hk))).symm

/-! ## The checks -/

/-- The input of 44 R190, read from the digit values. -/
def readUpce (t : List Byte) : UpceInput :=
  if t.length = 6 then ⟨0, t, none⟩ else ⟨t.headD 0, (t.drop 1).take 6, if t.length = 8 then t[7]? else none⟩

theorem readUpce_core_length {t : List Byte} (h : t.length = 6 ∨ t.length = 7 ∨ t.length = 8) :
    (readUpce t).core.length = 6 := by
  rw [readUpce]
  split
  · assumption
  · rw [List.length_take, List.length_drop]
    omega

theorem upceShape_eq_false {n : Nat} : (n = 6 || n = 7 || n = 8) = false ↔ n ≠ 6 ∧ n ≠ 7 ∧ n ≠ 8 := by
  simp [and_assoc]

/-- The checks of 44 R191 in their order, worded as the rule words them. -/
theorem parseUpce_eq (bytes : List Byte) : parseUpce bytes =
    if bytes.length ≠ 6 ∧ bytes.length ≠ 7 ∧ bytes.length ≠ 8 then .error .eShape
    else if bytes.any fun b => b.toNat < 48 || 57 < b.toNat then .error .eChar
    else if 1 < (readUpce (bytes.map (· - 48))).ns.toNat then .error .eChar
    else .ok (readUpce (bytes.map (· - 48))) := by
  rw [any_not_digit]
  obtain ⟨hshape, h⟩ | ⟨hshape, hdigits, h⟩ | ⟨hshape, hdigits, h⟩ :=
      checkDigits_cases (fun n => n = 6 || n = 7 || n = 8) bytes
  · rw [if_pos (upceShape_eq_false.1 hshape), parseUpce, h]
  · have hlen := mt upceShape_eq_false.2 (ne_false_of_eq_true hshape)
    rw [if_neg hlen, if_pos (by rw [hdigits]; rfl), parseUpce, h]
  · have hlen := mt upceShape_eq_false.2 (ne_false_of_eq_true hshape)
    rw [if_neg hlen, if_neg (by rw [hdigits]; decide), parseUpce, h]
    rfl

/-! ## The expansion -/

/-- The expansion of 44 R192, over the integers as the rule words it. -/
theorem map_toNat_upceExpandDefault (ns d1 d2 d3 d4 d5 d6 : Byte) :
    (upceExpandDefault ns [d1, d2, d3, d4, d5, d6]).map BitVec.toNat =
      expand11 ns.toNat d1.toNat d2.toNat d3.toNat d4.toNat d5.toNat d6.toNat := by
  have h2 : d6.toNat ≤ 2 ↔ d6.toNat = 0 ∨ d6.toNat = 1 ∨ d6.toNat = 2 := by omega
  have h3 : d6 = 3 ↔ d6.toNat = 3 := BitVec.toNat_inj.symm
  have h4 : d6 = 4 ↔ d6.toNat = 4 := BitVec.toNat_inj.symm
  simp only [upceExpandDefault, expand11, h2, h3, h4]
  split_ifs <;> rfl

theorem expand11_length (ns d1 d2 d3 d4 d5 d6 : Nat) : (expand11 ns d1 d2 d3 d4 d5 d6).length = 11 := by
  rw [expand11]
  split_ifs <;> rfl

theorem upceExpandDefault_length (ns : Byte) {core : List Byte} (h : core.length = 6) :
    (upceExpandDefault ns core).length = 11 := by
  match core, h with
  | [d1, d2, d3, d4, d5, d6], _ =>
    rw [← List.length_map BitVec.toNat, map_toNat_upceExpandDefault, expand11_length]

/-- `MOD10` of a list, by its length. -/
theorem mod10_eq_mod10Of (a : List Nat) : mod10 a = mod10Of a.length fun k => a.getD k 0 := by
  rw [← mod10_map_range]
  exact congrArg mod10 (List.ext_getElem (by simp) fun k hk _ => by simp [hk])

/-- An input's UPC-A form, as the rule gives it: the 12 digits and the check digit as integers. -/
def upceResult (u : UpceInput) : List Nat × Nat :=
  ((upceDigits unitConfig u).1.map BitVec.toNat, (upceDigits unitConfig u).2.toNat)

/-- A check digit that is supplied is used as it is (44 R191). -/
theorem upceResult_supplied (ns d1 d2 d3 d4 d5 d6 chk : Byte) :
    upceResult ⟨ns, [d1, d2, d3, d4, d5, d6], some chk⟩ =
      (expand11 ns.toNat d1.toNat d2.toNat d3.toNat d4.toNat d5.toNat d6.toNat ++ [chk.toNat], chk.toNat) := by
  rw [← map_toNat_upceExpandDefault]
  simp [upceResult, upceDigits, unitConfig]

/-- A check digit that is not supplied is `MOD10` of the expansion (44 R191). -/
theorem upceResult_computed (ns d1 d2 d3 d4 d5 d6 : Byte) {a : List Nat}
    (ha : expand11 ns.toNat d1.toNat d2.toNat d3.toNat d4.toNat d5.toNat d6.toNat = a) :
    upceResult ⟨ns, [d1, d2, d3, d4, d5, d6], none⟩ =
      (a ++ [mod10Of 11 fun k => a.getD k 0], mod10Of 11 fun k => a.getD k 0) := by
  have hlen : a.length = 11 := ha ▸ expand11_length ..
  rw [← map_toNat_upceExpandDefault] at ha
  have hbyte : (BitVec.ofNat 8 (mod10 a)).toNat = mod10 a :=
    Nat.mod_eq_of_lt (Nat.lt_of_le_of_lt (mod10_le a) (by decide))
  rw [← hlen, ← mod10_eq_mod10Of]
  simp [upceResult, upceDigits, unitConfig, ha, hbyte]

/-! ## The algorithm -/

/-- The last check, on the number system, in front of the result. -/
theorem map_upceResult_guard {u : UpceInput} {r : List Nat × Nat} (h : upceResult u = r) :
    (if 1 < u.ns.toNat then Except.error FailCode.eChar else Except.ok r) =
      (if 1 < u.ns.toNat then Except.error FailCode.eChar else Except.ok u).map upceResult := by
  rw [← h]
  split <;> rfl

/-- The rule's algorithm, told by index over the integers, is the model's checks and expansion. -/
theorem expandUpce_eq (bytes : List Byte) : expandUpce bytes = (parseUpce bytes).map upceResult := by
  rw [parseUpce_eq, expandUpce]
  by_cases hshape : bytes.length ≠ 6 ∧ bytes.length ≠ 7 ∧ bytes.length ≠ 8
  · rw [if_pos hshape, if_pos hshape]
    rfl
  by_cases hdigits : (bytes.any fun b => b.toNat < 48 || 57 < b.toNat) = true
  · rw [if_neg hshape, if_pos hdigits, if_neg hshape, if_pos hdigits]
    rfl
  rw [if_neg hshape, if_neg hdigits, if_neg hshape, if_neg hdigits]
  have hvalue := getD_map_sub_48 (by simpa [any_not_digit] using hdigits)
  have hlen : bytes.length = (bytes.map (· - 48)).length := by simp
  rw [hlen] at hshape
  simp only [hvalue, hlen]
  generalize bytes.map (· - 48) = t at hshape
  obtain h | h | h : t.length = 6 ∨ t.length = 7 ∨ t.length = 8 := by omega
  · match t, h with
    | [d1, d2, d3, d4, d5, d6], _ =>
      exact map_upceResult_guard (upceResult_computed 0 d1 d2 d3 d4 d5 d6 rfl)
  · match t, h with
    | [ns, d1, d2, d3, d4, d5, d6], _ =>
      exact map_upceResult_guard (upceResult_computed ns d1 d2 d3 d4 d5 d6 rfl)
  · match t, h with
    | [ns, d1, d2, d3, d4, d5, d6, chk], _ =>
      exact map_upceResult_guard (upceResult_supplied ns d1 d2 d3 d4 d5 d6 chk)

/-- An input that passes the checks has six core digits, so its UPC-A form has 12 digits. -/
theorem upceDigits_length_of_parseUpce {bytes : List Byte} {u : UpceInput} (h : parseUpce bytes = .ok u) :
    (upceDigits unitConfig u).1.length = 12 := by
  rw [parseUpce_eq] at h
  split_ifs at h with hshape hdigits hns
  cases h
  have hcore := readUpce_core_length (t := bytes.map (· - 48)) (by rw [List.length_map]; omega)
  rw [upceDigits, List.length_append, List.length_singleton]
  exact congrArg (· + 1) (upceExpandDefault_length _ hcore)

/-! ## The commands -/

section
variable {s : State} {base len : BitVec 12}

theorem exec_valUpce (base len : BitVec 12) (s : State) :
    exec (.valUpce base len) s = checkExtent s base len checkUpce := rfl

theorem exec_upceExp (base len : BitVec 12) (s : State) :
    exec (.upceExp base len) s = upceExpWith unitConfig base len s := rfl

theorem exec_upceExp_eRange (h : s.dlen.toNat < base.toNat + len.toNat) :
    exec (.upceExp base len) s = .next (failed s .eRange) := by
  rw [exec_upceExp, upceExpWith, extent_error (Nat.not_le_of_lt h)]
  rfl

theorem exec_upceExp_error {e : FailCode} (h : ¬s.dlen.toNat < base.toNat + len.toNat)
    (he : parseUpce (bytesOf s base len) = .error e) : exec (.upceExp base len) s = .next (failed s e) := by
  simp only [exec_upceExp, upceExpWith, extent_ok (Nat.le_of_not_lt h), extentBytes_eq_bytesOf, he]
  rfl

theorem exec_upceExp_ok {u : UpceInput} (h : ¬s.dlen.toNat < base.toNat + len.toNat)
    (hu : parseUpce (bytesOf s base len) = .ok u) :
    exec (.upceExp base len) s = .next (gave (s.setValues (upceDigits unitConfig u).1) (upceResult u).2) := by
  simp only [exec_upceExp, upceExpWith, extent_ok (Nat.le_of_not_lt h), extentBytes_eq_bytesOf, hu]
  rw [respond_eq, emit_zext32]
  rfl

end

theorem checkUpce_error {bytes : List Byte} {e : FailCode} (h : parseUpce bytes = .error e) :
    checkUpce bytes = .error e := by
  simp only [checkUpce, h]

theorem checkUpce_ok {bytes : List Byte} {u : UpceInput} (h : parseUpce bytes = .ok u) :
    checkUpce bytes = .ok (natWord 1) := by
  simp only [checkUpce, h]
  rfl

/-- Replacing the value buffer's contents and responding writes the buffer and its fill pointer alone. -/
theorem gave_setValues (s : State) (v : Nat) {out : List Byte} {n : Nat} (h : out.length = n) :
    gave (s.setValues out) v =
      { gave s v with vbuf := (s.setValues out).vbuf, vlen := BitVec.ofNat 13 n } := by
  rw [← h]
  rfl

/-- The values that replace the buffer's contents, as integers. -/
theorem setValues_valueNat {s : State} {out : List Byte} {k : Nat} (hs : s.Inv) (hk : k < out.length) :
    valueNat (s.setValues out) k = (out.map BitVec.toNat).getD k 0 := by
  rw [valueNat, setValues_valueAt s out k hs.vbuf_wf, if_pos hk]
  exact (List.getD_map (f := BitVec.toNat) ..).symm

/-- Settles O45: the rule's algorithm is `parseUpce`, which both commands run, then the 12 digits of its input. -/
theorem upceExpanderRunsItsAlgorithm : Obligations.UpceExpanderRunsItsAlgorithm := by
  refine ⟨decodesAs_of_rowOf rfl, decodesAs_of_rowOf rfl, fun base len s hs => ?_⟩
  rw [exec_valUpce]
  by_cases h : s.dlen.toNat < base.toNat + len.toNat
  · rw [if_pos h]
    exact ⟨exec_upceExp_eRange h, checkExtent_eRange h _⟩
  rw [if_neg h, expandUpce_eq]
  cases hparse : parseUpce (bytesOf s base len) with
  | error e => exact ⟨exec_upceExp_error h hparse, checkExtent_error h (checkUpce_error hparse)⟩
  | ok u =>
    have hlen := upceDigits_length_of_parseUpce hparse
    refine ⟨checkExtent_ok h (checkUpce_ok hparse), _, exec_upceExp_ok h hparse, gave_setValues s _ hlen,
      (List.length_map _).trans hlen, fun k => ?_⟩
    split
    next hk => exact setValues_valueNat hs (hlen ▸ hk)
    next hk => exact (setValues_valueAt s _ k hs.vbuf_wf).trans (if_neg (hlen ▸ hk))

end Sys2Proof.Proofs
end

section
/-! PROOFS. Code93 and the validators (45 R207 to R222): the alphabets by ASCII code, the sequencer byte by byte, the
two weighted sums by index, and what a validator answers. -/

namespace Sys2Proof.Proofs

open Sys2Proof.Machine Sys2Proof.Claims

/-! ## The alphabets -/

theorem foldUpper_toNat (b : Byte) : (foldUpper b).toNat = folded b := by
  rw [foldUpper, folded]
  split
  next hlower => bv_omega
  next => rfl

theorem map_toNat_symbols93 : symbols93.map BitVec.toNat = code93Symbols := rfl

theorem map_toNat_symbolsCB : symbolsCB.map BitVec.toNat = codabarSymbols := rfl

/-- A byte stands in an alphabet when its code stands among the alphabet's codes. -/
theorem contains_map_toNat (symbols : List Byte) (b : Byte) :
    (symbols.map BitVec.toNat).contains b.toNat = decide (b ∈ symbols) := by
  rw [List.contains_eq_mem, decide_eq_decide]
  exact List.mem_map_of_injective BitVec.toNat_injective

/-- A byte's place in an alphabet is its code's place among the alphabet's codes. -/
theorem idxOf_map_toNat (symbols : List Byte) (b : Byte) :
    (symbols.map BitVec.toNat).idxOf b.toNat = symbols.idxOf b := by
  have hbeq (x : Byte) : (x.toNat == b.toNat) = (x == b) := by
    rw [Bool.eq_iff_iff, beq_iff_eq, beq_iff_eq, BitVec.toNat_inj]
  rw [List.idxOf, List.idxOf, List.findIdx_map]
  exact congrArg (symbols.findIdx ·) (funext hbeq)

theorem alpha39_foldUpper (b : Byte) : unitConfig.alpha39 (foldUpper b) = code93Symbols.contains (folded b) := by
  rw [← map_toNat_symbols93, ← foldUpper_toNat, contains_map_toNat]
  rfl

theorem alphaCB_foldUpper (b : Byte) : unitConfig.alphaCB (foldUpper b) = codabarSymbols.contains (folded b) := by
  rw [← map_toNat_symbolsCB, ← foldUpper_toNat, contains_map_toNat]
  rfl

/-! ## The sequencer of Code93 -/

/-- The value of a Code93 symbol, case-folded (45 R207). -/
def value93 (b : Byte) : Byte := BitVec.ofNat 8 (code93Symbols.idxOf (folded b))

theorem alpha93_foldUpper (b : Byte) :
    unitConfig.alpha93 (foldUpper b) = if code93Symbols.contains (folded b) then some (value93 b) else none := by
  rw [value93, ← map_toNat_symbols93, ← foldUpper_toNat, contains_map_toNat, idxOf_map_toNat]
  simp only [decide_eq_true_eq]
  rfl

/-- The place of a byte is at most 43, so its value holds it. -/
theorem value93_toNat (b : Byte) : (value93 b).toNat = code93Symbols.idxOf (folded b) :=
  Nat.mod_eq_of_lt (Nat.lt_of_le_of_lt List.idxOf_le_length (by decide))

/-- The scan of 45 R208 fails if any byte is no symbol, else it maps every byte. -/
theorem scan93_eq (bytes : List Byte) : scan93 unitConfig bytes =
    if bytes.any fun b => !(code93Symbols.contains (folded b)) then .error .eChar else .ok (bytes.map value93) := by
  induction bytes with
  | nil => rfl
  | cons b rest ih =>
    rw [scan93, alpha93_foldUpper, ih, List.any_cons]
    cases code93Symbols.contains (folded b) with
    | false => rfl
    | true => cases rest.any fun b => !(code93Symbols.contains (folded b)) <;> rfl

theorem bytesOf_length (s : State) (base len : BitVec 12) : (bytesOf s base len).length = len.toNat :=
  extentBytes_length s base len

theorem bytesOf_eq_nil {s : State} {base len : BitVec 12} : bytesOf s base len = [] ↔ len.toNat = 0 := by
  rw [← List.length_eq_zero_iff, bytesOf_length]

theorem sequence93_eq (s : State) (base len : BitVec 12) : sequence93 unitConfig (bytesOf s base len) =
    if len.toNat = 0 then .error .eShape
    else if (bytesOf s base len).any fun b => !(code93Symbols.contains (folded b)) then .error .eChar
    else .ok ((bytesOf s base len).map value93) := by
  simp only [sequence93, bytesOf_eq_nil, scan93_eq]

/-- The values that `C93.SEQ` writes, by index. -/
theorem getD_map_value93 {s : State} {base len : BitVec 12} {k : Nat} (hk : k < len.toNat) :
    (((bytesOf s base len).map value93).map BitVec.toNat).getD k 0 =
      code93Symbols.idxOf (folded (s.dataAt (base.toNat + k))) := by
  simp [bytesOf, hk, value93_toNat]

theorem exec_c93Seq (base len : BitVec 12) (s : State) :
    exec (.c93Seq base len) s = sequenceExtent s base len (sequence93 unitConfig) := rfl

theorem exec_valC93 (base len : BitVec 12) (s : State) :
    exec (.valC93 base len) s = checkExtent s base len (Machine.discard (sequence93 unitConfig) 2) := rfl

/-- Settles O47: both commands run one scan, whose checks come in the rule's order and whose output is one value per
byte. -/
theorem code93SequencerMapsEveryByte : Obligations.Code93SequencerMapsEveryByte := by
  refine ⟨decodesAs_of_rowOf rfl, decodesAs_of_rowOf rfl, fun base len s hs => ?_⟩
  rw [exec_c93Seq, exec_valC93]
  have hseq := sequence93_eq s base len
  by_cases hrange : s.dlen.toNat < base.toNat + len.toNat
  · rw [if_pos hrange]
    exact ⟨sequenceExtent_eRange hrange _, checkExtent_eRange hrange _⟩
  rw [if_neg hrange]
  by_cases hshape : len.toNat = 0
  · rw [if_pos hshape] at hseq ⊢
    exact ⟨sequenceExtent_error hrange hseq, checkExtent_error hrange (discard_error hseq 2)⟩
  rw [if_neg hshape] at hseq ⊢
  by_cases hchar : ((bytesOf s base len).any fun b => !(code93Symbols.contains (folded b))) = true
  · rw [if_pos hchar] at hseq ⊢
    exact ⟨sequenceExtent_error hrange hseq, checkExtent_error hrange (discard_error hseq 2)⟩
  rw [if_neg hchar] at hseq ⊢
  have hlen : ((bytesOf s base len).map value93).length = len.toNat :=
    (List.length_map _).trans (bytesOf_length s base len)
  have hfit : ((bytesOf s base len).map value93).length ≤ vbufSize := hlen ▸ Nat.le_of_lt len.isLt
  refine ⟨checkExtent_ok hrange (discard_ok hseq 2), _, sequenceExtent_ok hrange hseq, by rw [hlen]; rfl,
    (setValues_vlen_toNat s hfit).trans hlen, fun k => ?_⟩
  split
  next hk => exact (setValues_valueNat hs (hlen ▸ hk)).trans (getD_map_value93 hk)
  next hk => exact (setValues_valueAt s _ k hs.vbuf_wf).trans (if_neg (hlen ▸ hk))

/-! ## The check of Code93 -/

/-- A weighted sum counted from the right end, by index from the left (45 R206). -/
theorem sum_zipIdx_reverse_map_range (w f : Nat → Nat) (n : Nat) :
    (((List.range n).map f).reverse.zipIdx.map fun x => x.1 * w x.2).sum =
      ((List.range n).map fun i => f i * w (n - 1 - i)).sum := by
  rw [← List.sum_reverse ((List.range n).map _)]
  refine congrArg List.sum (List.ext_getElem (by simp) fun k hk _ => ?_)
  have hk : k < n := by simpa using hk
  have hback : n - 1 - (n - 1 - k) = k := by omega
  simp [hback]

/-- One more value on the right has weight 1 and moves every other weight on by one place (45 R206, R210). -/
theorem weighted93_concat (cycle : Nat) (vs : List Nat) (c : Nat) : weighted93 cycle (vs ++ [c]) =
    (vs.reverse.zipIdx.map fun x => x.1 * ((x.2 + 1) % cycle + 1)).sum + c := by
  rw [weighted93, List.reverse_concat, List.zipIdx_cons, List.zipIdx_succ, Nat.add_comm]
  simp [Function.comp_def]

theorem check93C_map_valueNat (s : State) : check93C ((List.range s.vlen.toNat).map (valueNat s)) = code93C s := by
  rw [check93C, weighted93, code93C, sum_zipIdx_reverse_map_range (· % 20 + 1)]

theorem check93K_map_valueNat (s : State) : check93K ((List.range s.vlen.toNat).map (valueNat s)) = code93K s := by
  rw [check93K, code93K, weighted93_concat, check93C_map_valueNat,
    sum_zipIdx_reverse_map_range (fun j => (j + 1) % 15 + 1)]
  have hweight : ∀ i ∈ List.range s.vlen.toNat, valueNat s i * ((s.vlen.toNat - 1 - i + 1) % 15 + 1) =
      valueNat s i * ((s.vlen.toNat - i) % 15 + 1) := fun i hi => by
    have hshift : s.vlen.toNat - 1 - i + 1 = s.vlen.toNat - i := by
      have := List.mem_range.1 hi
      omega
    rw [hshift]
  rw [List.map_congr_left hweight]

/-- `C` is below 47, so `K` in the next byte adds to it (45 R210). -/
theorem checks93_map_valueNat (s : State) :
    checks93 ((List.range s.vlen.toNat).map (valueNat s)) = code93C s + 256 * code93K s := by
  have hC : code93C s < 2 ^ 8 := Nat.lt_trans (Nat.mod_lt _ (by decide)) (by decide)
  rw [checks93, check93C_map_valueNat, check93K_map_valueNat, Nat.or_comm, ← Nat.shiftLeft_add_eq_or_of_lt hC,
    Nat.shiftLeft_eq, Nat.mul_comm, Nat.add_comm]

theorem exec_c93Chk (s : State) : exec .c93Chk s = checksumValues s 46 checks93 := rfl

/-- Settles O48: over the buffer by index, the check is the two weighted sums. -/
theorem code93CheckIsTheTwoWeightedSums : Obligations.Code93CheckIsTheTwoWeightedSums := by
  refine ⟨decodesAs_of_rowOf rfl, fun s => ?_⟩
  rw [exec_c93Chk]
  by_cases h0 : s.vlen.toNat = 0
  · rw [if_pos h0]
    exact checksumValues_eShape h0 46 checks93
  · rw [if_neg h0, ← checks93_map_valueNat]
    exact ⟨fun h => checksumValues_gave h0 h checks93, fun i hi h => checksumValues_eChar hi h checks93⟩

/-! ## The validators -/

/-- What a digit symbology's validator answers, for any shape (45 R215 to R217, R220). -/
theorem checkExtent_digitsOnly (s : State) (base len : BitVec 12) (shape : Nat → Bool) :
    checkExtent s base len (digitsOnly shape) = .next (
      if s.dlen.toNat < base.toNat + len.toNat then failed s .eRange
      else if shape len.toNat = false then failed s .eShape
      else if (bytesOf s base len).any fun b => b.toNat < 48 || 57 < b.toNat then failed s .eChar
      else gave s 0) := by
  by_cases hrange : s.dlen.toNat < base.toNat + len.toNat
  · rw [if_pos hrange]
    exact checkExtent_eRange hrange _
  rw [if_neg hrange, any_not_digit, ← bytesOf_length s base len]
  obtain ⟨hshape, hcheck⟩ | ⟨hshape, hdigits, hcheck⟩ | ⟨hshape, hdigits, hcheck⟩ :=
    checkDigits_cases shape (bytesOf s base len)
  · rw [if_pos hshape]
    exact checkExtent_error hrange (by rw [digitsOnly, hcheck])
  · rw [if_neg (ne_false_of_eq_true hshape), if_pos (by rw [hdigits]; rfl)]
    exact checkExtent_error hrange (by rw [digitsOnly, hcheck])
  · rw [if_neg (ne_false_of_eq_true hshape), if_neg (by rw [hdigits]; decide)]
    exact checkExtent_ok hrange (by rw [digitsOnly, hcheck]; rfl)

/-- Settles O49: the four commands are one validator, each with its own test of the length. -/
theorem digitValidatorsCheckLengthThenDigits : Obligations.DigitValidatorsCheckLengthThenDigits :=
  ⟨decodesAs_of_rowOf rfl, decodesAs_of_rowOf rfl, decodesAs_of_rowOf rfl, decodesAs_of_rowOf rfl, fun base len s =>
    ⟨checkExtent_digitsOnly s base len (· == 13), checkExtent_digitsOnly s base len (· == 8),
      checkExtent_digitsOnly s base len (· == 12), checkExtent_digitsOnly s base len (fun n => n % 2 == 0)⟩⟩

theorem checkAlphabet_error {alpha : Byte → Bool} {bytes : List Byte}
    (h : (bytes.any fun b => !alpha (foldUpper b)) = true) : checkAlphabet alpha bytes = .error .eChar := by
  rw [← List.not_all_eq_any_not, Bool.not_eq_true'] at h
  rw [checkAlphabet, if_neg (Bool.eq_false_iff.1 h)]

theorem checkAlphabet_ok {alpha : Byte → Bool} {bytes : List Byte}
    (h : ¬(bytes.any fun b => !alpha (foldUpper b)) = true) : checkAlphabet alpha bytes = .ok (natWord 0) := by
  rw [← List.not_all_eq_any_not, Bool.not_eq_true', Bool.not_eq_false] at h
  rw [checkAlphabet, if_pos h]
  rfl

/-- What a validator by alphabet answers, for any alphabet (45 R219). -/
theorem checkExtent_checkAlphabet (s : State) (base len : BitVec 12) (alpha : Byte → Bool) :
    checkExtent s base len (checkAlphabet alpha) = .next (
      if s.dlen.toNat < base.toNat + len.toNat then failed s .eRange
      else if (bytesOf s base len).any fun b => !alpha (foldUpper b) then failed s .eChar
      else gave s 0) := by
  by_cases hrange : s.dlen.toNat < base.toNat + len.toNat
  · rw [if_pos hrange]
    exact checkExtent_eRange hrange _
  rw [if_neg hrange]
  split
  next hchar => exact checkExtent_error hrange (checkAlphabet_error hchar)
  next hchar => exact checkExtent_ok hrange (checkAlphabet_ok hchar)

/-- Codabar's length test stands between the bounds and the alphabet (45 R221). -/
theorem checkExtent_checkCodabar (s : State) (base len : BitVec 12) (alpha : Byte → Bool) :
    checkExtent s base len (checkCodabar alpha) = .next (
      if s.dlen.toNat < base.toNat + len.toNat then failed s .eRange
      else if len.toNat = 0 then failed s .eShape
      else if (bytesOf s base len).any fun b => !alpha (foldUpper b) then failed s .eChar
      else gave s 0) := by
  by_cases hrange : s.dlen.toNat < base.toNat + len.toNat
  · rw [if_pos hrange]
    exact checkExtent_eRange hrange _
  rw [if_neg hrange]
  split
  next hshape => exact checkExtent_error hrange (if_pos (bytesOf_eq_nil.2 hshape))
  next hshape =>
    have hcheck : checkCodabar alpha (bytesOf s base len) = checkAlphabet alpha (bytesOf s base len) :=
      if_neg (mt bytesOf_eq_nil.1 hshape)
    split
    next hchar => exact checkExtent_error hrange (hcheck.trans (checkAlphabet_error hchar))
    next hchar => exact checkExtent_ok hrange (hcheck.trans (checkAlphabet_ok hchar))

theorem exec_valC39 (base len : BitVec 12) (s : State) :
    exec (.valC39 base len) s = checkExtent s base len (checkAlphabet unitConfig.alpha39) := rfl

theorem exec_valCbar (base len : BitVec 12) (s : State) :
    exec (.valCbar base len) s = checkExtent s base len (checkCodabar unitConfig.alphaCB) := rfl

/-- Settles O50: the two validators by alphabet, each on its own symbols. -/
theorem alphabetValidatorsCheckEveryByte : Obligations.AlphabetValidatorsCheckEveryByte := by
  refine ⟨decodesAs_of_rowOf rfl, decodesAs_of_rowOf rfl, fun base len s => ⟨?_, ?_⟩⟩
  · simp only [exec_valC39, checkExtent_checkAlphabet, alpha39_foldUpper]
  · simp only [exec_valCbar, checkExtent_checkCodabar, alphaCB_foldUpper]

end Sys2Proof.Proofs
end

section
/-! PROOFS. Matrix and masks (46 R231 to R239): what `MAT.INIT`, `MAT.WR` and `MAT.RD` do to the cells, the eight
formulas, the state after a mask, and the two laws of masking. -/

namespace Sys2Proof.Proofs

open Sys2Proof.Machine Sys2Proof.Claims

@[simp] theorem gave_cell (s : State) (v r c : Nat) : (gave s v).cell r c = s.cell r c := rfl

/-! ## The cells -/

theorem sideOf_eq {v : BitVec 6} (h : v.toNat ≠ 0) : sideOf v = 4 * v.toNat + 17 :=
  if_neg (mt (congrArg BitVec.toNat) h)

theorem exec_matInit {v : BitVec 6} (s : State) (h : ¬(v.toNat < 1 ∨ 40 < v.toNat)) :
    exec (.matInit v) s = .next (gave (s.initMatrix v) (4 * v.toNat + 17)) := if_neg h

theorem exec_matInit_eArg {v : BitVec 6} (s : State) (h : v.toNat < 1 ∨ 40 < v.toNat) :
    exec (.matInit v) s = .next (failed s .eArg) := if_pos h

/-- Settles O51: `MAT.INIT` drops the entries of the new square from the matrix memory (`initMatrix_cell`). -/
theorem matrixInitBlanksTheSquare : Obligations.MatrixInitBlanksTheSquare := by
  refine ⟨decodesAs_of_rowOf rfl, fun v s hs => ?_⟩
  by_cases hv : v.toNat < 1 ∨ 40 < v.toNat
  · rw [if_pos hv]
    exact exec_matInit_eArg s hv
  · rw [if_neg hv]
    refine ⟨_, exec_matInit s hv, rfl, fun r c hc => ?_⟩
    rw [gave_cell, initMatrix_cell s v r c hs.mat_wf hc, sideOf_eq (by omega)]
    rfl

/-- The coordinates that `MAT.WR` and `MAT.RD` refuse (46 R232, R233). -/
theorem not_cellOk_iff {s : State} {row col : Byte} :
    ¬s.cellOk row col ↔ sideNat s ≤ row.toNat ∨ sideNat s ≤ col.toNat := by
  rw [State.cellOk, sideNat_eq_side]
  omega

/-- The checks that `MAT.WR` and `MAT.RD` share: a matrix, then coordinates inside it. -/
theorem checkCell_eq (s : State) (row col : Byte) (x : Result) :
    (if s.matVer = 0 then fail s .eState else if s.cellOk row col then x else fail s .eRange) =
      if s.matVer = 0 then .next (failed s .eState)
      else if sideNat s ≤ row.toNat ∨ sideNat s ≤ col.toNat then .next (failed s .eRange) else x := by
  rw [← ite_not (s.cellOk row col)]
  simp only [not_cellOk_iff]
  rfl

/-- The cell that `MAT.WR` writes, from its operand as an integer (46 R232). -/
theorem cellOfBits_eq : ∀ z : BitVec 2,
    cellOfBits z = ⟨if z.toNat % 2 = 1 then .dark else .light, 2 ≤ z.toNat⟩ := by decide

theorem exec_matWr (row col : Byte) (z : BitVec 2) (s : State) : exec (.matWr row col z) s =
    if s.matVer = 0 then .next (failed s .eState)
    else if sideNat s ≤ row.toNat ∨ sideNat s ≤ col.toNat then .next (failed s .eRange)
    else .next (gave (s.writeCell row.toNat col.toNat (cellOfBits z)) 0) :=
  checkCell_eq s row col _

/-- Settles O52: one write to the matrix memory, at the cell's key (`writeCell_cell`). -/
theorem matrixWriteWritesOneCell : Obligations.MatrixWriteWritesOneCell := by
  refine ⟨decodesAs_of_rowOf rfl, fun row col z s hs => ?_⟩
  rw [exec_matWr]
  by_cases hver : s.matVer = 0
  · rw [if_pos hver, if_pos hver]
  rw [if_neg hver, if_neg hver]
  by_cases hcell : sideNat s ≤ row.toNat ∨ sideNat s ≤ col.toNat
  · rw [if_pos hcell, if_pos hcell]
  rw [if_neg hcell, if_neg hcell]
  have hcol : col.toNat < matMax := Nat.lt_of_lt_of_le (by omega) (sideNat_le hs)
  refine ⟨_, rfl, rfl, fun r c hc => ?_⟩
  rw [gave_cell, writeCell_cell s _ _ _ r c hs.mat_wf hcol hc, cellOfBits_eq]

/-- What a read gives: blank, or a listed element. -/
theorem readMem_eq_blank_or_mem {α : Type} (blank : α) (m : Memory α) (i : Nat) :
    readMem blank m i = blank ∨ (i, readMem blank m i) ∈ m := by
  fun_induction readMem blank m i with
  | case1 => exact .inl rfl
  | case2 => exact .inr List.mem_cons_self
  | case3 => exact .inl rfl
  | case4 _ _ _ _ _ _ ih => exact ih.imp_right (List.mem_cons_of_mem _)

/-- A cell of the matrix is blank or set: never reserved but unset (46 R233). -/
theorem cell_eq_blank_or_set {s : State} (hs : s.Inv) (r c : Nat) :
    s.cell r c = blankCell ∨ (s.cell r c).st ≠ .unset :=
  (readMem_eq_blank_or_mem blankCell s.mat (cellKey r c)).imp_right (hs.mat_set _)

theorem cellBits_toNat (x : MatCell) : (cellBits x).toNat = cellNat x := by
  obtain ⟨st, rsv⟩ := x
  cases st <;> cases rsv <;> rfl

theorem cellNat_mem_of_set {x : MatCell} (h : x.st ≠ .unset) : cellNat x ∈ [4, 5, 6, 7] := by
  obtain ⟨st, rsv⟩ := x
  cases st with
  | unset => exact absurd rfl h
  | light | dark => cases rsv <;> decide

/-- Settles O53: the response is the cell's three bits, and no cell is reserved but unset. -/
theorem matrixReadRespondsTheCell : Obligations.MatrixReadRespondsTheCell := by
  refine ⟨decodesAs_of_rowOf rfl, fun row col s hs => ⟨?_, ?_⟩⟩
  · rw [apply_ite Host.Outcome.next, apply_ite Host.Outcome.next, ← cellBits_toNat, ← emit_zext32]
    exact checkCell_eq s row col _
  · obtain hblank | hset := cell_eq_blank_or_set hs row.toNat col.toNat
    · rw [hblank]
      decide
    · exact List.mem_cons_of_mem 0 (cellNat_mem_of_set hset)

/-! ## The formulas -/

/-- The default predicates are the eight formulas (46 R236). -/
theorem maskPredDefault_iff (id : BitVec 3) (r c : Nat) :
    maskPredDefault id r c = true ↔ maskFormula id.toNat r c := by
  have hid := id.isLt
  unfold maskPredDefault maskFormula
  generalize id.toNat = n at hid
  interval_cases n <;> simp

theorem exec_maskBit (id : BitVec 3) (row col : Byte) (s : State) :
    exec (.maskBit id row col) s = respond s (if maskPredDefault id row.toNat col.toNat then 1 else 0) := rfl

/-- Settles O54: the predicates of the unit's configuration are the formulas. -/
theorem maskBitEvaluatesTheFormula : Obligations.MaskBitEvaluatesTheFormula := by
  refine ⟨decodesAs_of_rowOf rfl, fun id row col s => ?_⟩
  rw [exec_maskBit, ← maskPredDefault_iff]
  exact ⟨fun h => by rw [if_pos h]; rfl, fun h => by rw [if_neg h]; rfl⟩

/-! ## The state after a mask -/

/-- The state that `MASK.APPLY` leaves for the predicate `pred`, with its response given (46 R238). -/
def afterMask (pred : Nat → Nat → Bool) (s : State) : State :=
  gave (s.setMatrix (maskSquare pred s.side s.mat)) (s.maskCount pred)

theorem dataUnset_eq_false_iff {s : State} : s.dataUnset = false ↔ dataSet s := by
  refine ⟨fun h r c hr hc => ?_, fun h => ?_⟩
  · rw [sideNat_eq_side] at hr hc
    exact cell_set_of_dataUnset h hr hc
  · rw [dataSet, sideNat_eq_side] at h
    refine List.any_eq_false.2 fun p hp => ?_
    obtain ⟨hr, hc⟩ := mem_coords.1 hp
    simpa using h p.1 p.2 hr hc

section
variable {cfg : Config} {id : BitVec 3} {s : State}

theorem maskApplyWith_noMatrix (hver : s.matVer = 0) : maskApplyWith cfg id s = .next (failed s .eState) :=
  if_pos hver

theorem maskApplyWith_unset (hver : s.matVer ≠ 0) (hset : ¬dataSet s) :
    maskApplyWith cfg id s = .next (failed s .eState) := by
  rw [← dataUnset_eq_false_iff, Bool.not_eq_false] at hset
  exact (if_neg hver).trans (if_pos hset)

theorem maskApplyWith_set (hver : s.matVer ≠ 0) (hset : dataSet s) :
    maskApplyWith cfg id s = .next (afterMask (cfg.maskPred id) s) := by
  rw [← dataUnset_eq_false_iff] at hset
  exact (if_neg hver).trans (if_neg (Bool.eq_false_iff.1 hset))

end

theorem flipCell_ne {x : MatCell} : flipCell x ≠ x := by
  intro h
  have hst := congrArg MatCell.st h
  unfold flipCell at hst
  dsimp only at hst
  split at hst
  next hdark => simp [hdark] at hst
  next hdark => exact hdark hst.symm

theorem flipCell_flipCell {x : MatCell} (h : x.st ≠ .unset) : flipCell (flipCell x) = x := by
  obtain ⟨st, rsv⟩ := x
  cases st with
  | unset => exact absurd rfl h
  | light | dark => rfl

section
variable {pred : Nat → Nat → Bool} {s : State} {r c : Nat}

theorem maskCell_rsv (n k : Nat) (x : MatCell) : (maskCell pred n k x).rsv = x.rsv := by
  unfold maskCell
  split <;> rfl

/-- Each cell after a mask, by its coordinates. -/
theorem afterMask_cell (hset : dataSet s) (hc : c < matMax) :
    (afterMask pred s).cell r c = maskCell pred s.side (cellKey r c) (s.cell r c) := by
  rw [maskCell, cellKey_div hc, cellKey_mod hc]
  exact maskSquare_cell s pred s.side r c hc (cell_set_of_dataUnset (dataUnset_eq_false_iff.2 hset))

/-- A mask sets what it changes, so it leaves a matrix that can be masked again. -/
theorem dataSet_afterMask (hs : s.Inv) (hset : dataSet s) : dataSet (afterMask pred s) := by
  intro r c hr hc hrsv
  have hmax : c < matMax := Nat.lt_of_lt_of_le hc (sideNat_le (s := s) hs)
  rw [afterMask_cell hset hmax] at hrsv ⊢
  rw [maskCell_rsv] at hrsv
  exact maskCell_set _ _ _ (hset r c hr hc hrsv)

/-- What a mask inverts depends on the reserved bits alone, which no mask changes. -/
theorem maskCount_afterMask (hs : s.Inv) (hset : dataSet s) (q : Nat → Nat → Bool) :
    (afterMask pred s).maskCount q = s.maskCount q := by
  refine List.countP_congr fun p hp => ?_
  have hmax : p.2 < matMax := Nat.lt_of_lt_of_le (mem_coords.1 hp).2 (side_le (s := s) hs)
  rw [masked, afterMask_cell hset hmax, maskCell_rsv]
  rfl

/-- What a mask inverts, by coordinates: the unreserved cells of the square where the predicate holds. -/
theorem maskCell_cellKey (hc : c < matMax) (n : Nat) (x : MatCell) : maskCell pred n (cellKey r c) x =
    if r < n ∧ c < n ∧ x.rsv = false ∧ pred r c = true then flipCell x else x := by
  simp [maskCell, cellKey_div hc, cellKey_mod hc, masked, and_assoc]

/-- The response of a mask is the number of cells that it changes. -/
theorem maskCount_eq_countP (hs : s.Inv) (hset : dataSet s) : s.maskCount pred =
    (coords (sideNat s)).countP fun p => (afterMask pred s).cell p.1 p.2 != s.cell p.1 p.2 := by
  rw [State.maskCount, sideNat_eq_side]
  refine List.countP_congr fun p hp => ?_
  obtain ⟨hr, hc⟩ := mem_coords.1 hp
  have hmax : p.2 < matMax := Nat.lt_of_lt_of_le hc (side_le hs)
  rw [afterMask_cell hset hmax, maskCell_cellKey hmax]
  simp only [masked, Bool.and_eq_true, Bool.not_eq_true', bne_iff_ne, hr, hc, true_and]
  split
  next hm => exact iff_of_true hm flipCell_ne
  next hm => exact iff_of_false hm (not_not_intro rfl)

end

theorem exec_maskApply (id : BitVec 3) (s : State) :
    exec (.maskApply id) s = maskApplyWith unitConfig id s := rfl

/-- Settles O55: each cell after the mask is inverted or as before (`maskCell_cellKey`), and the count is that of the
cells inverted, for inverting changes a cell. -/
theorem maskApplyInvertsTheMaskedCells : Obligations.MaskApplyInvertsTheMaskedCells := by
  refine ⟨decodesAs_of_rowOf rfl, fun id s hs => ⟨maskApplyWith_noMatrix, maskApplyWith_unset,
    fun hver hset => ⟨afterMask (maskPredDefault id) s, maskApplyWith_set hver hset, ?_, fun r c hc => ?_⟩⟩⟩
  · rw [← maskCount_eq_countP hs hset]
    rfl
  · rw [afterMask_cell hset hc, maskCell_cellKey hc, ← sideNat_eq_side]
    split
    next hm =>
      obtain ⟨hr, hcol, hrsv, hf⟩ := hm
      exact .inl ⟨hr, hcol, hrsv, (maskPredDefault_iff id r c).1 hf, by rw [flipCell, hrsv]⟩
    next hm =>
      rw [maskPredDefault_iff] at hm
      exact .inr ⟨hm, rfl⟩

/-! ## The laws of masking -/

/-- Inverting a cell keeps its reserved bit, so whether a mask inverts the cell does not depend on another mask. -/
theorem masked_flipCell (pred : Nat → Nat → Bool) (r c : Nat) (x : MatCell) :
    masked pred r c (flipCell x) = masked pred r c x := rfl

theorem maskCell_maskCell (p : Nat → Nat → Bool) (n k : Nat) {x : MatCell} (h : x.st ≠ .unset) :
    maskCell p n k (maskCell p n k x) = x := by
  unfold maskCell
  split
  next hm => exact (if_pos hm).trans (flipCell_flipCell h)
  next => rfl

theorem maskCell_comm (p q : Nat → Nat → Bool) (n k : Nat) (x : MatCell) :
    maskCell p n k (maskCell q n k x) = maskCell q n k (maskCell p n k x) := by
  unfold maskCell
  split <;> split <;> simp_all [masked_flipCell]

theorem maskSquare_maskSquare_self {s : State} (hs : s.Inv) (p : Nat → Nat → Bool) (n : Nat) :
    maskSquare p n (maskSquare p n s.mat) = s.mat := by
  simp only [maskSquare_eq_map, List.map_map]
  refine (List.map_congr_left fun x hx => ?_).trans (List.map_id _)
  exact congrArg (Prod.mk x.1) (maskCell_maskCell p n x.1 (hs.mat_set x hx))

theorem maskSquare_comm (p q : Nat → Nat → Bool) (n : Nat) (m : Memory MatCell) :
    maskSquare p n (maskSquare q n m) = maskSquare q n (maskSquare p n m) := by
  simp only [maskSquare_eq_map, List.map_map]
  exact List.map_congr_left fun x _ => congrArg (Prod.mk x.1) (maskCell_comm p q n x.1 x.2)

/-- Settles O56: on the entries of the matrix memory a mask is an involution and two masks commute; the count depends on
the reserved bits alone. -/
theorem masksAreInvolutionsAndCommute : Obligations.MasksAreInvolutionsAndCommute := by
  intro cfg a b s hs hver hset
  have hseta := dataSet_afterMask (pred := cfg.maskPred a) hs hset
  have hsetb := dataSet_afterMask (pred := cfg.maskPred b) hs hset
  refine ⟨_, _, _, _, _, _, maskApplyWith_set hver hset, maskApplyWith_set hver hseta, rfl, ?_,
    maskSquare_maskSquare_self hs _ _, maskApplyWith_set hver hseta, maskApplyWith_set hver hset,
    maskApplyWith_set hver hsetb, maskSquare_comm _ _ _ _⟩
  rw [← maskCount_afterMask hs hset]
  rfl

end Sys2Proof.Proofs
end

section
/-! PROOFS. The penalty scorer (46 R240 to R247): the model's recursions along lines and rows as the counts by index of
the four rules, on the square as a table of colours. -/

namespace Sys2Proof.Proofs

open Sys2Proof.Machine Sys2Proof.Claims

/-! ## The square as a table -/

/-- The rows of a table of `n` by `n` colours given by coordinates. -/
def tableRows (n : Nat) (d : Nat → Nat → Bool) : List (List Bool) :=
  (List.range n).map fun r => (List.range n).map (d r)

theorem tableRows_length (n : Nat) (d : Nat → Nat → Bool) : (tableRows n d).length = n := by
  simp [tableRows]

theorem darkRows_square (s : State) : darkRows s.square = tableRows (sideNat s) (darkAt s) := by
  simp only [darkRows, State.square, tableRows, sideNat_eq_side, List.map_map, Function.comp_def]
  rfl

/-- A count over the square, row by row. -/
theorem countP_coords (n : Nat) (p : Nat × Nat → Bool) :
    (coords n).countP p = ((List.range n).map fun r => (List.range n).countP fun c => p (r, c)).sum := by
  simp only [coords, List.countP_flatMap, Function.comp_def, List.countP_map]

/-- A count below `n + 1`: at 0, then one place on. -/
theorem countP_range_succ (n : Nat) (p : Nat → Bool) :
    (List.range (n + 1)).countP p = (if p 0 then 1 else 0) + (List.range n).countP fun k => p (k + 1) := by
  rw [List.range_succ_eq_map, List.countP_cons, List.countP_map, Nat.add_comm]
  rfl

theorem map_range_succ {α : Type} (n : Nat) (f : Nat → α) :
    (List.range (n + 1)).map f = f 0 :: (List.range n).map fun k => f (k + 1) := by
  rw [List.range_succ_eq_map, List.map_cons, List.map_map]
  rfl

theorem columnsOf_tableRows (n : Nat) (d : Nat → Nat → Bool) :
    columnsOf (tableRows n d) = (List.range n).map fun c => (List.range n).map fun r => d r c := by
  rw [columnsOf, tableRows_length]
  refine List.map_congr_left fun c hc => ?_
  simp only [tableRows, List.map_map]
  refine List.map_congr_left fun r _ => ?_
  simp [List.mem_range.1 hc]

/-- The lines that the scorer reads are those of 46 R240. -/
theorem linesOf_darkRows (s : State) : linesOf (darkRows s.square) = matrixLines s := by
  rw [darkRows_square, linesOf, columnsOf_tableRows]
  rfl

/-! ## Rule (a) -/

/-- What the runs of a splitting of a line add (46 R241). -/
def runsTotal (runs : List (List Bool)) : Nat := (runs.map fun run => if 5 ≤ run.length then run.length - 2 else 0).sum

/-- Along the line, the scorer's count of the current run is the length of the run that the splitting has gathered. -/
theorem runsTotal_splitByLoop (ln : List Bool) (last : Bool) (run : List Bool) (done : List (List Bool)) :
    runsTotal (List.splitBy.loop (· == ·) ln last run done) = runsTotal done + runsFrom last (run.length + 1) ln := by
  induction ln generalizing last run done with
  | nil => simp [List.splitBy.loop, runsTotal, runsFrom, runScore]
  | cons x xs ih =>
    rw [List.splitBy.loop, runsFrom]
    by_cases hx : x = last
    · subst hx
      simp [ih]
    · have hne : (last == x) = false := beq_eq_false_iff_ne.2 (Ne.symm hx)
      rw [if_neg hx, hne, ih, runsTotal, List.map_cons, List.sum_cons, List.length_reverse, List.length_cons]
      simp only [runsTotal, runScore, List.length_nil, Nat.zero_add]
      omega

/-- Rule (a) on a line is the sum over its maximal runs. -/
theorem runsOf_eq_runsTotal (ln : List Bool) : runsOf ln = runsTotal (ln.splitBy (· == ·)) := by
  cases ln with
  | nil => rfl
  | cons x xs => exact ((runsTotal_splitByLoop xs x [] []).trans (Nat.zero_add _)).symm

theorem penaltyA_eq_scoreA (s : State) : penaltyA (darkRows s.square) = scoreA s := by
  rw [penaltyA, linesOf_darkRows]
  exact congrArg List.sum (List.map_congr_left fun ln _ => runsOf_eq_runsTotal ln)

/-! ## Rule (b) -/

/-- The four cells from column `c` of two adjacent rows have one colour (46 R242). -/
def oneColour (up down : Nat → Bool) (c : Nat) : Bool := up c == up (c + 1) && up c == down c && up c == down (c + 1)

/-- Rule (b) on two adjacent rows counts the columns. -/
theorem blocksOf_eq_countP (n : Nat) (up down : Nat → Bool) :
    blocksOf ((List.range (n + 1)).map up) ((List.range (n + 1)).map down) =
      3 * (List.range n).countP (oneColour up down) := by
  induction n generalizing up down with
  | zero => rfl
  | succ n ih =>
    have hrest := ih (fun k => up (k + 1)) (fun k => down (k + 1))
    rw [map_range_succ, map_range_succ n] at hrest
    rw [map_range_succ, map_range_succ n, map_range_succ, map_range_succ n, blocksOf, hrest, countP_range_succ,
      Nat.mul_add]
    congr 1
    simp [oneColour, and_assoc]

/-- Rule (b) on all rows adds up the pairs of adjacent rows. -/
theorem penaltyB_map_range (n : Nat) (row : Nat → List Bool) :
    penaltyB ((List.range (n + 1)).map row) = ((List.range n).map fun r => blocksOf (row r) (row (r + 1))).sum := by
  induction n generalizing row with
  | zero => rfl
  | succ n ih =>
    have hrest := ih fun k => row (k + 1)
    rw [map_range_succ] at hrest
    rw [map_range_succ, map_range_succ, penaltyB, hrest, map_range_succ, List.sum_cons]

theorem penaltyB_eq_scoreB (s : State) : penaltyB (darkRows s.square) = scoreB s := by
  rw [darkRows_square, scoreB, countP_coords, tableRows]
  cases sideNat s with
  | zero => rfl
  | succ n =>
    simp only [penaltyB_map_range, blocksOf_eq_countP, Nat.add_sub_cancel, List.sum_map_mul_left]
    rfl

/-! ## Rule (c) -/

/-- Rule (c) on a line counts the places where a window of 11 cells equals a template (46 R243). -/
theorem windowsOf_eq_countP {tA tB : List Bool} (hA : tA.length = 11) (hB : tB.length = 11) (ln : List Bool) :
    windowsOf tA tB ln = 40 * (List.range (ln.length - 10)).countP fun k =>
      (ln.drop k).take 11 == tA || (ln.drop k).take 11 == tB := by
  induction ln with
  | nil => rfl
  | cons x xs ih =>
    by_cases hshort : (x :: xs).length ≤ 10
    · have hle := windowsOf_le hA hB (x :: xs)
      rw [Nat.sub_eq_zero_of_le hshort] at hle ⊢
      exact Nat.le_zero.1 hle
    · have hlen : (x :: xs).length - 10 = xs.length - 10 + 1 := by
        simp only [List.length_cons] at hshort ⊢
        omega
      rw [windowsOf, ih, hlen, countP_range_succ, Nat.mul_add]
      congr 1
      simp only [mul_ite, List.drop_zero, Bool.or_eq_true, beq_iff_eq]

theorem penaltyC_eq_scoreC {s : State} (hs : s.Inv) : penaltyC unitConfig (darkRows s.square) = scoreC s := by
  have hlen : ∀ ln ∈ linesOf (darkRows s.square), ln.length = sideNat s := fun ln hln => by
    rw [length_of_mem_linesOf (isSquare_darkRows hs) hln, darkRows_square, tableRows_length]
  rw [linesOf_darkRows] at hlen
  rw [penaltyC, linesOf_darkRows, scoreC, ← List.sum_map_mul_left]
  refine congrArg List.sum (List.map_congr_left fun ln hln => ?_)
  rw [← hlen ln hln]
  exact windowsOf_eq_countP rfl rfl ln

/-! ## Rule (d) -/

theorem penaltyD_eq_scoreD (s : State) : penaltyD (darkRows s.square) = scoreD s := by
  rw [scoreD_eq_balance, penaltyD, darkRows_square, tableRows_length, countP_coords, tableRows, List.map_map]
  simp [Function.comp_def, List.count_eq_countP]


/-! ## The command -/

section
variable {s : State}

/-- The unset cells that `PEN.SCORE` refuses (46 R247). -/
theorem square_set_iff_allSet : (∀ row ∈ s.square, ∀ x ∈ row, x.st ≠ .unset) ↔ allSet s := by
  simp only [State.square, List.forall_mem_map, List.mem_range, allSet, sideNat_eq_side]
  exact forall_congr' fun r => forall_comm

theorem exec_penScore_noMatrix (hver : s.matVer = 0) : exec .penScore s = .next (failed s .eState) := if_pos hver

theorem exec_penScore_unset (hver : s.matVer ≠ 0) (hset : ¬allSet s) :
    exec .penScore s = .next (failed s .eState) := by
  rw [← square_set_iff_allSet, ← square_set_iff, not_not] at hset
  exact (if_neg hver).trans (if_pos hset)

theorem exec_penScore_set (hs : s.Inv) (hver : s.matVer ≠ 0) (hset : allSet s) : exec .penScore s = .next
    (gave (s.setPenalty (scoreA s) (scoreB s) (scoreC s) (scoreD s)) (scoreA s + scoreB s + scoreC s + scoreD s)) := by
  rw [← square_set_iff_allSet, ← square_set_iff] at hset
  rw [← penaltyA_eq_scoreA, ← penaltyB_eq_scoreB, ← penaltyC_eq_scoreC hs, ← penaltyD_eq_scoreD]
  exact (if_neg hver).trans (if_neg hset)

end

/-- Settles O57: the model's four recursions compute the four rules, and no register loses a bit of its score. -/
theorem penaltyScoreMeetsTheFourRules : Obligations.PenaltyScoreMeetsTheFourRules := by
  refine ⟨decodesAs_of_rowOf rfl, fun s hs => ⟨exec_penScore_noMatrix, exec_penScore_unset,
    fun hver hset => ⟨_, exec_penScore_set hs hver hset, rfl, ?_⟩⟩⟩
  have hA := scoreA_le hs
  have hB := scoreB_le hs
  have hC := scoreC_le hs
  have hD := scoreD_le s
  exact ⟨natWord_toNat (by omega), natWord_toNat (by omega), natWord_toNat (by omega), natWord_toNat (by omega),
    natWord_toNat (by omega)⟩

end Sys2Proof.Proofs
end

section
/-! PROOFS. The best-mask register (46 R250 to R252): what an offer leaves, and that the offers leave the first of those
with the lowest score. -/

namespace Sys2Proof.Proofs

open Sys2Proof.Machine Sys2Proof.Claims

theorem exec_bestUpd_eState {s : State} (id : BitVec 3) (h : s.penValid = false) :
    exec (.bestUpd id) s = .next (failed s .eState) := if_pos h

theorem exec_bestUpd {s : State} (id : BitVec 3) (h : s.penValid ≠ false) :
    exec (.bestUpd id) s = .next (gave (s.offerBest id) (s.offerBest id).bestId.toNat) := by
  rw [← emit_zext32]
  exact if_neg h

/-- Settles O59: an offer records the candidate or leaves the state alone. -/
theorem bestRegisterKeepsTheLowestScore : Obligations.BestRegisterKeepsTheLowestScore := by
  refine ⟨decodesAs_of_rowOf rfl, decodesAs_of_rowOf rfl, fun id s => ⟨rfl, ?_⟩⟩
  by_cases hvalid : s.penValid = false
  · rw [exec_bestUpd_eState id hvalid, if_pos hvalid]
  · rw [exec_bestUpd id hvalid, if_neg hvalid, State.offerBest]
    split <;> rfl

/-- The best candidate's registers (46 R251). -/
def bestOf (s : State) : BitVec 3 × BitVec 32 := (s.bestId, s.bestPen)

/-- A valid score `p` stands. -/
def scoredAs (s : State) (p : BitVec 32) : State := { s with penTotal := p, penValid := true }

/-- The state after the score `o.2` is offered as candidate `o.1`, with the response given. -/
def afterOffer (s : State) (o : BitVec 3 × BitVec 32) : State :=
  gave ((scoredAs s o.2).offerBest o.1) ((scoredAs s o.2).offerBest o.1).bestId.toNat

theorem offerAll_cons (o : BitVec 3 × BitVec 32) (rest : List (BitVec 3 × BitVec 32)) (s : State) :
    offerAll (o :: rest) s = offerAll rest (afterOffer s o) := by
  rw [offerAll, exec_bestUpd o.1 (ne_false_of_eq_true rfl)]
  rfl

/-- An offer replaces a recorded candidate only if its score is strictly lower (46 R251). -/
theorem afterOffer_cases (s : State) (o : BitVec 3 × BitVec 32) :
    (afterOffer s o).bestValid = true ∧
      ((bestOf (afterOffer s o) = o ∧ (s.bestValid = true → o.2.toNat < s.bestPen.toNat)) ∨
        (bestOf (afterOffer s o) = bestOf s ∧ s.bestValid = true ∧ s.bestPen.toNat ≤ o.2.toNat)) := by
  obtain ⟨h, hlow⟩ | ⟨h, hvalid, hle⟩ := (scoredAs s o.2).offerBest_cases o.1 <;> rw [afterOffer, h]
  · exact ⟨rfl, .inl ⟨rfl, fun hv => hlow.resolve_left (ne_false_of_eq_true hv)⟩⟩
  · exact ⟨hvalid, .inr ⟨rfl, hvalid, hle⟩⟩

/-- The candidate recorded in `t` is the first of `offers` with the lowest score: it splits them into earlier ones that
are higher and later ones that are not lower. -/
def FirstLowest (offers : List (BitVec 3 × BitVec 32)) (t : State) : Prop :=
  t.bestValid = true ∧ ∃ earlier later, offers = earlier ++ bestOf t :: later ∧
    (∀ o ∈ earlier, (bestOf t).2.toNat < o.2.toNat) ∧ ∀ o ∈ later, (bestOf t).2.toNat ≤ o.2.toNat

/-- With no candidate recorded the first offer is. -/
theorem firstLowest_singleton {s : State} (h : s.bestValid = false) (o : BitVec 3 × BitVec 32) :
    FirstLowest [o] (afterOffer s o) := by
  obtain ⟨hvalid, ⟨hbest, -⟩ | ⟨-, hs, -⟩⟩ := afterOffer_cases s o
  · exact ⟨hvalid, [], [], by rw [hbest]; rfl, by simp, by simp⟩
  · exact absurd hs (ne_true_of_eq_false h)

theorem firstLowest_le {offers : List (BitVec 3 × BitVec 32)} {t : State} (h : FirstLowest offers t)
    {o : BitVec 3 × BitVec 32} (ho : o ∈ offers) : (bestOf t).2.toNat ≤ o.2.toNat := by
  obtain ⟨-, earlier, later, rfl, hearlier, hlater⟩ := h
  obtain ho | ho := List.mem_append.1 ho
  · exact Nat.le_of_lt (hearlier o ho)
  · obtain rfl | ho := List.mem_cons.1 ho
    · exact Nat.le_refl _
    · exact hlater o ho

/-- One more offer: if it is strictly lower then every offer before it is higher, else it is one more later offer. -/
theorem firstLowest_afterOffer {offers : List (BitVec 3 × BitVec 32)} {s : State} (h : FirstLowest offers s)
    (o : BitVec 3 × BitVec 32) : FirstLowest (offers ++ [o]) (afterOffer s o) := by
  obtain ⟨hvalid, ⟨hbest, hlow⟩ | ⟨hbest, -, hle⟩⟩ := afterOffer_cases s o
  · refine ⟨hvalid, offers, [], by rw [hbest], fun x hx => ?_, by simp⟩
    rw [hbest]
    exact Nat.lt_of_lt_of_le (hlow h.1) (firstLowest_le h hx)
  · obtain ⟨-, earlier, later, rfl, hearlier, hlater⟩ := h
    refine ⟨hvalid, earlier, later ++ [o], by rw [hbest]; simp, ?_, fun x hx => ?_⟩ <;> rw [hbest]
    · exact hearlier
    · obtain hx | hx := List.mem_append.1 hx
      · exact hlater x hx
      · exact List.mem_singleton.1 hx ▸ hle

/-- The offers still to be made come after those made. -/
theorem firstLowest_offerAll (rest : List (BitVec 3 × BitVec 32)) :
    ∀ {offers : List (BitVec 3 × BitVec 32)} {s : State}, FirstLowest offers s →
      ∃ t, offerAll rest s = some t ∧ FirstLowest (offers ++ rest) t := by
  induction rest with
  | nil => exact fun {offers s} h => ⟨s, rfl, by rwa [List.append_nil]⟩
  | cons o rest ih =>
    intro offers s h
    rw [offerAll_cons, List.append_cons]
    exact ih (firstLowest_afterOffer h o)

/-- Settles O60: after the first offer there is a recorded candidate, and each further offer keeps it the first of the
lowest (`firstLowest_afterOffer`). -/
theorem bestRegisterSelectsTheFirstLowest : Obligations.BestRegisterSelectsTheFirstLowest := by
  intro s offers hne
  obtain ⟨o, rest, rfl⟩ := List.exists_cons_of_ne_nil hne
  have hfirst := firstLowest_singleton (s := { s with bestValid := false }) rfl o
  obtain ⟨t, hrun, hbest⟩ := firstLowest_offerAll rest hfirst
  have ⟨hvalid, earlier, later, hsplit, hearlier, _⟩ := hbest
  refine ⟨t, earlier.length, (offerAll_cons o rest _).trans hrun, hvalid, ?_,
    fun k x hx => firstLowest_le hbest (List.mem_of_getElem? hx), fun k x hk hx => hearlier x ?_⟩ <;>
    rw [List.singleton_append] at hsplit
  · rw [hsplit, List.getElem?_append_right (Nat.le_refl _), Nat.sub_self]
    rfl
  · rw [hsplit, List.getElem?_append_left hk] at hx
    exact List.mem_of_getElem? hx

end Sys2Proof.Proofs
end

section
/-! PROOFS. Control commands (47 R266 to R268): the registers as integers, what `SRST` writes, and that no sequence of
words tells the state after it from the state after a hardware reset (47 R267, 70 R360). -/

namespace Sys2Proof.Proofs

open Sys2Proof.Machine Sys2Proof.Claims

/-- Settles O19: `NOP` has no operand bits and writes nothing. -/
theorem nopOnlyResponds : Obligations.NopOnlyResponds :=
  ⟨decodesAs_of_rowOf rfl, fun _ => rfl⟩

/-! ## Reading a register -/

/-- The state that a command leaves when it responds a whole word. -/
theorem emit_ok (s : State) (v : Word) : s.emit (.ok v) = gave s v.toNat := by
  rw [gave, BitVec.ofNat_toNat, BitVec.setWidth_eq]
  rfl

theorem zext32_toNat {k : Nat} (h : k ≤ 32) (v : BitVec k) : (zext32 v).toNat = v.toNat :=
  BitVec.toNat_setWidth_of_le h

/-- Four valid bits, the last one lowest, as an integer (10 R45). -/
theorem flagBits_toNat : ∀ best pen mat rs : Bool,
    (0#28 ++ BitVec.ofBool best ++ BitVec.ofBool pen ++ BitVec.ofBool mat ++ BitVec.ofBool rs).toNat =
      rs.toNat + 2 * mat.toNat + 4 * pen.toNat + 8 * best.toNat := by
  decide

theorem flags_toNat (s : State) : s.flags.toNat =
    (if s.rsN.toNat = 0 then 0 else 1) + (if s.matVer.toNat = 0 then 0 else 2) + (if s.penValid then 4 else 0) +
      (if s.bestValid then 8 else 0) := by
  have hrs : s.rsValid.toNat = if s.rsN.toNat = 0 then 0 else 1 := by
    simp [State.rsValid, Bool.toNat, BitVec.toNat_eq, Bool.cond_decide]
  have hmat : 2 * s.matValid.toNat = if s.matVer.toNat = 0 then 0 else 2 := by
    simp [State.matValid, Bool.toNat, BitVec.toNat_eq, Bool.cond_decide]
  have hpen : 4 * s.penValid.toNat = if s.penValid then 4 else 0 := by cases s.penValid <;> rfl
  have hbest : 8 * s.bestValid.toNat = if s.bestValid then 8 else 0 := by cases s.bestValid <;> rfl
  rw [State.flags, flagBits_toNat, hrs, hmat, hpen, hbest]

/-- The registers of 10 R44 as integers, one by one. -/
theorem csr_toNat (s : State) : ∀ n, n ≤ 13 → (s.csr n).toNat = (csrTable s).getD n 0
  | 0, _ => zext32_toNat (by decide) s.dlen
  | 1, _ => zext32_toNat (by decide) s.vlen
  | 2, _ => zext32_toNat (by decide) s.rsN
  | 3, _ => zext32_toNat (by decide) s.matVer
  | 4, _ => by
    have hside : s.side < 2 ^ 32 := by
      rw [← sideNat_eq_side, sideNat]
      split <;> omega
    exact (natWord_toNat hside).trans (sideNat_eq_side s).symm
  | 5, _ | 6, _ | 7, _ | 8, _ | 9, _ | 11, _ | 13, _ => rfl
  | 10, _ => zext32_toNat (by decide) s.bestId
  | 12, _ => flags_toNat s
  | _ + 14, h => absurd h (by omega)

/-- Settles O21: the three checks, then the register (`csr_toNat`). -/
theorem csrReadRespondsTheRegister : Obligations.CsrReadRespondsTheRegister := by
  refine ⟨decodesAs_of_rowOf rfl, fun idx s => ?_⟩
  change execCsrRd idx s = _
  unfold execCsrRd
  by_cases hidx : 13 < idx.toNat
  · rw [if_pos hidx, if_pos hidx]
    rfl
  · rw [if_neg hidx, if_neg hidx, ← csr_toNat s _ (by omega), ← emit_ok]
    split
    · rfl
    · split <;> rfl

/-! ## The soft reset -/

/-- What `SRST` leaves has no contents, so only the constant ROM can be observed (10 R50, 47 R267). -/
theorem softReset_obsEq_reset {s : State} (h : s.romOk) : s.softReset.ObsEq State.reset where
  rom := h
  dlen := rfl
  data := fun i hi => absurd hi (Nat.not_lt_zero i)
  vlen := rfl
  value := fun i hi => absurd hi (Nat.not_lt_zero i)
  rsN := rfl
  gen := fun hn => absurd rfl hn
  rem := fun i hi => absurd hi (Nat.not_lt_zero i)
  matVer := rfl
  cell := fun r _ hr => absurd hr (Nat.not_lt_zero r)
  penValid := rfl
  pen := fun hv => nomatch hv
  bestValid := rfl
  best := fun hv => nomatch hv

theorem exec_srst (s : State) : exec .srst s = .next (gave s.softReset 0) := rfl

/-- A response is no part of what a command observes. -/
theorem obsEq_gave_left {s t : State} (h : s.ObsEq t) (v : Nat) : (gave s v).ObsEq t := { h with }

/-- Settles O20: the six registers are `State.softReset`'s, and they leave nothing to observe
(`softReset_obsEq_reset`). -/
theorem softResetWritesSixRegisters : Obligations.SoftResetWritesSixRegisters :=
  ⟨decodesAs_of_rowOf rfl, fun s =>
    ⟨_, exec_srst s, rfl, fun hrom => obsEq_gave_left (softReset_obsEq_reset hrom) 0⟩⟩

/-! ## Words after a reset -/

theorem acceptWord_keeps_inv {w : Word} {s t : State} (hs : s.Inv) (h : acceptWord w s = .next t) : t.Inv := by
  cases hdec : decode w with
  | error e =>
    rw [acceptWord_error s hdec] at h
    cases h
    exact { hs with }
  | ok i =>
    rw [acceptWord_ok s hdec] at h
    obtain ⟨u, r, hw, rfl⟩ := writes_of_exec h
    exact { inv_writes hw hs with }

theorem runWords_cons {w : Word} {s t : State} (h : acceptWord w s = .next t) (ws : List Word) :
    runWords (w :: ws) s = runWords ws t := by
  simp only [runWords, h]

/-- From two states that agree, every sequence of words gives the same responses `rs`, newest first, one to a word, and
states that agree: one word after the other (`unobservableStorageIsNeverObserved`). -/
theorem runWords_sameResponses (ws : List Word) : ∀ {s t : State}, s.Inv → t.Inv → s.ObsEq t →
    ∃ s' t' rs, runWords ws s = some s' ∧ runWords ws t = some t' ∧ rs.length = ws.length ∧
      s'.responses = rs ++ s.responses ∧ t'.responses = rs ++ t.responses ∧ s'.ObsEq t' := by
  induction ws with
  | nil => exact fun {s t} _ _ h => ⟨s, t, [], rfl, rfl, rfl, rfl, rfl, h⟩
  | cons w ws ih =>
    intro s t hs ht h
    obtain ⟨s₁, t₁, r, hs₁, ht₁, ⟨hsr, -⟩, ⟨htr, -⟩, h₁⟩ := unobservableStorageIsNeverObserved w s t hs ht h
    obtain ⟨s', t', rs, hs', ht', hlen, hsrs, htrs, h'⟩ :=
      ih (acceptWord_keeps_inv hs hs₁) (acceptWord_keeps_inv ht ht₁) h₁
    refine ⟨s', t', rs ++ [r], (runWords_cons hs₁ ws).trans hs', (runWords_cons ht₁ ws).trans ht', ?_, ?_, ?_, h'⟩
    · rw [List.length_append, hlen, List.length_singleton, List.length_cons]
    · rw [hsrs, hsr, List.append_cons]
    · rw [htrs, htr, List.append_cons]

theorem acceptWord_srst (s : State) : acceptWord 0x01000000 s = .next (gave s.softReset 0) :=
  (acceptWord_ok s rfl).trans (exec_srst s)

/-- Settles O12: the state after `SRST` agrees with the reset state (`softReset_obsEq_reset`), and states that agree
answer every sequence alike. -/
theorem softResetErasesTheHistory : Obligations.SoftResetErasesTheHistory := by
  intro s ws hs
  have hobs := obsEq_gave_left (softReset_obsEq_reset hs.rom) 0
  obtain ⟨t, u, rs, ht, hu, hlen, htr, hur, h⟩ :=
    runWords_sameResponses ws (acceptWord_keeps_inv hs (acceptWord_srst s)) inv_reset hobs
  exact ⟨t, u, rs, (runWords_cons (acceptWord_srst s) ws).trans ht, hu, hlen, htr, hur.trans (List.append_nil rs), h⟩

end Sys2Proof.Proofs
end

section
/-! PROOFS. The data and value buffers (47 R270 to R278): the clears, pushes and reads one command at a time, and the
contents after a clear and a run of pushes. -/

namespace Sys2Proof.Proofs

open Sys2Proof.Machine Sys2Proof.Claims

/-! ## Clears -/

theorem exec_dClr (s : State) : exec .dClr s = .next (gave s.clearData 0) := rfl

theorem exec_vClr (s : State) : exec .vClr s = .next (gave s.clearValues 0) := rfl

/-- Settles O22: the write of each clear is its fill pointer. -/
theorem bufferClearsEmptyOneBuffer : Obligations.BufferClearsEmptyOneBuffer :=
  ⟨decodesAs_of_rowOf rfl, decodesAs_of_rowOf rfl, fun s => ⟨exec_dClr s, exec_vClr s⟩⟩

/-! ## Pushes -/

/-- A fill pointer in its range counts up without wrapping round (10 R27, R28). -/
theorem toNat_add_one_of_le {n : BitVec 13} (hle : n.toNat ≤ 4096) : (n + 1).toNat = n.toNat + 1 := by
  bv_omega

section
variable {s : State}

theorem exec_dPush_eFull (h : s.dlen.toNat = 4096) (b : Byte) : exec (.dPush b) s = .next (failed s .eFull) := if_pos h

theorem exec_dPush (hs : s.Inv) (h : s.dlen.toNat ≠ 4096) (b : Byte) :
    exec (.dPush b) s = .next (gave (s.pushData b) (s.dlen.toNat + 1)) := by
  rw [← toNat_add_one_of_le hs.dlen_le, ← emit_zext32]
  exact if_neg h

theorem exec_vPush_eFull (h : s.vlen.toNat = 4096) (b : Byte) : exec (.vPush b) s = .next (failed s .eFull) := if_pos h

theorem exec_vPush (hs : s.Inv) (h : s.vlen.toNat ≠ 4096) (b : Byte) :
    exec (.vPush b) s = .next (gave (s.pushValue b) (s.vlen.toNat + 1)) := by
  rw [← toNat_add_one_of_le hs.vlen_le, ← emit_zext32]
  exact if_neg h

end

/-- Settles O23: the write is one byte at the fill pointer (`pushData_dataAt`). -/
theorem dataPushAppendsOneByte : Obligations.DataPushAppendsOneByte := by
  refine ⟨decodesAs_of_rowOf rfl, fun b s hs => ?_⟩
  by_cases hfull : s.dlen.toNat = 4096
  · rw [if_pos hfull]
    exact exec_dPush_eFull hfull b
  · rw [if_neg hfull]
    have hread (j : Nat) := pushData_dataAt s b j hs.dbuf_wf
    exact ⟨_, exec_dPush hs hfull b, rfl, toNat_add_one_of_le hs.dlen_le, (hread _).trans (if_pos rfl),
      fun j hj => (hread j).trans (if_neg hj)⟩

/-- Settles O24: the write is one value at the fill pointer (`pushValue_valueAt`). -/
theorem valuePushAppendsOneValue : Obligations.ValuePushAppendsOneValue := by
  refine ⟨decodesAs_of_rowOf rfl, fun b s hs => ?_⟩
  by_cases hfull : s.vlen.toNat = 4096
  · rw [if_pos hfull]
    exact exec_vPush_eFull hfull b
  · rw [if_neg hfull]
    have hread (j : Nat) := pushValue_valueAt s b j hs.vbuf_wf
    exact ⟨_, exec_vPush hs hfull b, rfl, toNat_add_one_of_le hs.vlen_le, (hread _).trans (if_pos rfl),
      fun j hj => (hread j).trans (if_neg hj)⟩

/-! ## Reads -/

/-- The form of the two reads: the check of the index, then the element (47 R272, R276). -/
theorem bufferRead_eq (s : State) (len : BitVec 13) (idx : BitVec 12) (x : Byte) :
    (if len.toNat ≤ idx.toNat then fail s .eRange else respond s (zext32 x)) =
      .next (if len.toNat ≤ idx.toNat then failed s .eRange else gave s x.toNat) := by
  rw [apply_ite Host.Outcome.next, ← emit_zext32]
  rfl

theorem exec_dRd (idx : BitVec 12) (s : State) : exec (.dRd idx) s = .next (
    if s.dlen.toNat ≤ idx.toNat then failed s .eRange else gave s (s.dataAt idx.toNat).toNat) :=
  bufferRead_eq s s.dlen idx _

theorem exec_vRd (idx : BitVec 12) (s : State) : exec (.vRd idx) s = .next (
    if s.vlen.toNat ≤ idx.toNat then failed s .eRange else gave s (s.valueAt idx.toNat).toNat) :=
  bufferRead_eq s s.vlen idx _

/-- Settles O25: both reads have one form (`bufferRead_eq`). -/
theorem bufferReadsRespondTheElement : Obligations.BufferReadsRespondTheElement :=
  ⟨decodesAs_of_rowOf rfl, decodesAs_of_rowOf rfl, fun idx s => ⟨exec_dRd idx s, exec_vRd idx s⟩⟩

/-! ## The contents -/

/-- `DBUF[0..DLEN)`: the contents of the data buffer (10 R27), as `State.values` is those of the value buffer. -/
def dataBytes (s : State) : List Byte := readSeq blankByte s.dbuf 0 s.dlen.toNat

theorem dataBytes_length (s : State) : (dataBytes s).length = s.dlen.toNat := readSeq_length _ _ _ _

theorem getElem_dataBytes (s : State) {i : Nat} (h : i < (dataBytes s).length) : (dataBytes s)[i] = s.dataAt i :=
  (readSeq_getElem _ _ _ _ _ h).trans (congrArg s.dataAt (Nat.zero_add i))

theorem getElem_values (s : State) {i : Nat} (h : i < s.values.length) : s.values[i] = s.valueAt i :=
  (readSeq_getElem _ _ _ _ _ h).trans (congrArg s.valueAt (Nat.zero_add i))

/-- Writing the place behind a sequence appends to it. -/
theorem readSeq_writeMem_end {m : Memory Byte} (h : Memory.wf blankByte m) (n : Nat) (b : Byte) :
    readSeq blankByte (writeMem blankByte m n b) 0 (n + 1) = readSeq blankByte m 0 n ++ [b] := by
  have hold : readSeq blankByte (writeMem blankByte m n b) 0 n = readSeq blankByte m 0 n :=
    readSeq_congr _ _ _ _ _ fun k hk => readMem_writeMem_ne _ _ _ _ _ h (by omega)
  rw [← hold, readSeq, List.range_succ, List.map_append, List.map_singleton, Nat.zero_add,
    readMem_writeMem_self _ _ _ _ h]
  rfl

/-- The command `push b`, given in a state that meets `Inv` and whose `contents` have room, appends `b` to them and keeps
`Inv` (47 R271, R275). -/
def Appends (push : Byte → Instr) (contents : State → List Byte) : Prop :=
  ∀ (b : Byte) (s : State), s.Inv → (contents s).length < 4096 →
    ∃ t, exec (push b) s = .next t ∧ t.Inv ∧ contents t = contents s ++ [b]

theorem appends_dPush : Appends .dPush dataBytes := by
  intro b s hs hlen
  rw [dataBytes_length] at hlen
  have hroom : s.dlen.toNat ≠ 4096 := Nat.ne_of_lt hlen
  refine ⟨_, exec_dPush hs hroom b, inv_gave (inv_pushData hs b hroom) _, ?_⟩
  change readSeq blankByte (writeMem blankByte s.dbuf s.dlen.toNat b) 0 (s.dlen + 1).toNat = _
  rw [toNat_add_one_of_le hs.dlen_le, readSeq_writeMem_end hs.dbuf_wf]
  rfl

theorem appends_vPush : Appends .vPush State.values := by
  intro b s hs hlen
  rw [values_length] at hlen
  have hroom : s.vlen.toNat ≠ 4096 := Nat.ne_of_lt hlen
  refine ⟨_, exec_vPush hs hroom b, inv_gave (inv_pushValue hs b hroom) _, ?_⟩
  change readSeq blankByte (writeMem blankByte s.vbuf s.vlen.toNat b) 0 (s.vlen + 1).toNat = _
  rw [toNat_add_one_of_le hs.vlen_le, readSeq_writeMem_end hs.vbuf_wf]
  rfl

/-- A run of pushes that fits appends them all, in order. -/
theorem runCommands_map_push {push : Byte → Instr} {contents : State → List Byte} (hpush : Appends push contents)
    (bs : List Byte) : ∀ s : State, s.Inv → (contents s).length + bs.length ≤ 4096 →
      ∃ t, runCommands (bs.map push) s = some t ∧ contents t = contents s ++ bs := by
  induction bs with
  | nil => exact fun s _ _ => ⟨s, rfl, (List.append_nil _).symm⟩
  | cons b bs ih =>
    intro s hs hfit
    rw [List.length_cons] at hfit
    obtain ⟨u, hu, hinv, hcontents⟩ := hpush b s hs (by omega)
    have hlen : (contents u).length = (contents s).length + 1 := by rw [hcontents, List.length_append]; rfl
    obtain ⟨t, ht, hbs⟩ := ih u hinv (by omega)
    exact ⟨t, (runCommands_cons hu _).trans ht, by rw [hbs, hcontents, ← List.append_cons]⟩

/-- A clear and a run of pushes that fits leave the bytes pushed. -/
theorem runCommands_load {push : Byte → Instr} {contents : State → List Byte} (hpush : Appends push contents)
    {clear : Instr} {s u : State} (hclear : exec clear s = .next u) (hu : u.Inv) (hempty : contents u = [])
    {bs : List Byte} (hfit : bs.length ≤ 4096) :
    ∃ t, runCommands (clear :: bs.map push) s = some t ∧ contents t = bs := by
  obtain ⟨t, ht, hbs⟩ := runCommands_map_push hpush bs u hu (by rwa [hempty, List.length_nil, Nat.zero_add])
  exact ⟨t, (runCommands_cons hclear _).trans ht, by rw [hbs, hempty, List.nil_append]⟩

theorem exec_dRd_of_lt (s : State) {idx : BitVec 12} (h : idx.toNat < (dataBytes s).length) :
    exec (.dRd idx) s = .next (gave s (dataBytes s)[idx.toNat].toNat) := by
  rw [exec_dRd, getElem_dataBytes, if_neg (Nat.not_le_of_lt (dataBytes_length s ▸ h))]

theorem exec_vRd_of_lt (s : State) {idx : BitVec 12} (h : idx.toNat < s.values.length) :
    exec (.vRd idx) s = .next (gave s s.values[idx.toNat].toNat) := by
  rw [exec_vRd, getElem_values, if_neg (Nat.not_le_of_lt (values_length s ▸ h))]

/-- Settles O26: the contents are the list pushed, by induction over the pushes (`runCommands_map_push`). -/
theorem buffersHoldWhatWasPushed : Obligations.BuffersHoldWhatWasPushed := by
  intro s bs hs hfit
  constructor
  · obtain ⟨t, ht, rfl⟩ :=
      runCommands_load appends_dPush (exec_dClr s) { hs with dlen_le := Nat.zero_le _ } rfl hfit
    exact ⟨t, ht, (dataBytes_length t).symm, fun _ => exec_dRd_of_lt t⟩
  · obtain ⟨t, ht, rfl⟩ :=
      runCommands_load appends_vPush (exec_vClr s) { hs with vlen_le := Nat.zero_le _ } rfl hfit
    exact ⟨t, ht, (values_length t).symm, fun _ => exec_vRd_of_lt t⟩

end Sys2Proof.Proofs
end

section
/-! PROOFS. Failures (60 R320, R322): a command either fails in the state it was given or responds with a value, so no
failure comes after a write. -/

namespace Sys2Proof.Proofs

open Sys2Proof.Machine Sys2Proof.Claims

/-- A command given in `s` ends in one of two ways: it fails in `s` itself, or it responds with a value, in whatever
state it has made (00 R15). -/
inductive FailsOrResponds (s : State) : Result → Prop
  | fail (c : FailCode) : FailsOrResponds s (fail s c)
  | respond (u : State) (v : Word) : FailsOrResponds s (respond u v)

/-- A value is no failure, so a failure leaves the state as it was. -/
theorem FailsOrResponds.eq_failed {s t : State} {x : Result} {c : FailCode} (hx : FailsOrResponds s x)
    (hnext : x = .next t) (hfail : t.responses = .fail c :: s.responses) : t = failed s c := by
  cases hx with
  | fail c' =>
    obtain rfl := fail_next.1 hnext
    obtain ⟨⟨⟩, -⟩ := List.cons.inj hfail
    rfl
  | respond u v =>
    obtain rfl := respond_next.1 hnext
    cases hfail

section
variable {s : State}

theorem failsOrResponds_ite {p : Prop} [Decidable p] {x y : Result} (hx : FailsOrResponds s x)
    (hy : FailsOrResponds s y) : FailsOrResponds s (if p then x else y) := by
  split
  · exact hx
  · exact hy

/-- A check before the rest of a command. -/
theorem failsOrResponds_check {p : Prop} [Decidable p] {c : FailCode} {x : Result} (hx : FailsOrResponds s x) :
    FailsOrResponds s (if p then fail s c else x) := failsOrResponds_ite (.fail c) hx

theorem failsOrResponds_checkExtent (base len : BitVec 12) (check : List Byte → Except FailCode Word) :
    FailsOrResponds s (checkExtent s base len check) := by
  rcases checkExtent_cases s base len check with ⟨-, h⟩ | ⟨-, e, -, h⟩ | ⟨-, v, -, h⟩ <;> rw [h]
  · exact .fail .eRange
  · exact .fail e
  · exact .respond s v

theorem failsOrResponds_sequenceExtent (base len : BitVec 12) (seq : List Byte → Except FailCode (List Byte)) :
    FailsOrResponds s (sequenceExtent s base len seq) := by
  rcases sequenceExtent_cases s base len seq with ⟨-, h⟩ | ⟨-, e, -, h⟩ | ⟨-, out, -, h⟩ <;> rw [h]
  · exact .fail .eRange
  · exact .fail e
  · exact .respond (s.setValues out) (natWord out.length)

end

theorem upceExp_failsOrResponds (base len : BitVec 12) (s : State) :
    FailsOrResponds s (execUpceExp base len s) := by
  unfold execUpceExp upceExpWith
  split
  · exact .fail _
  · split
    · exact .fail _
    · exact .respond _ _

theorem rsEnc_failsOrResponds (base len : BitVec 12) (s : State) : FailsOrResponds s (execRsEnc base len s) := by
  refine failsOrResponds_check ?_
  split
  · exact .fail _
  · exact .respond _ _

/-- Every command runs all its checks on the state it was given, before its writes. -/
theorem exec_failsOrResponds (i : Instr) (s : State) : FailsOrResponds s (exec i s) := by
  cases i with
  | nop | srst | dClr | vClr | gfMul | bchFmt | maskBit | bestClr => exact .respond _ _
  | dPush | dRd | vPush | vRd | gfExp | gfLog | rsGen | rsClr | rsFeed | bchVer | parEan13 | parUpce
  | matInit | bestUpd =>
    exact failsOrResponds_check (.respond _ _)
  | rsRd | rsGrd | maskApply | penScore => exact failsOrResponds_check (failsOrResponds_check (.respond _ _))
  | csrRd => exact failsOrResponds_check (failsOrResponds_check (failsOrResponds_check (.respond _ _)))
  | matWr | matRd => exact failsOrResponds_check (failsOrResponds_ite (.respond _ _) (.fail _))
  | c128Chk | m10Chk | c93Chk => exact failsOrResponds_check (failsOrResponds_check (.respond _ _))
  | c128Seq base len | c93Seq base len => exact failsOrResponds_sequenceExtent base len _
  | valC128 base len | valEan13 base len | valEan8 base len | valUpca base len | valUpce base len | valC39 base len
  | valItf base len | valCbar base len | valC93 base len => exact failsOrResponds_checkExtent base len _
  | upceExp base len => exact upceExp_failsOrResponds base len s
  | rsEnc base len => exact rsEnc_failsOrResponds base len s

/-- The decoder's failures are given in the state as it was, too (30 R91). -/
theorem acceptWord_failsOrResponds (w : Word) (s : State) : FailsOrResponds s (acceptWord w s) := by
  cases hdec : decode w with
  | error e =>
    rw [acceptWord_error s hdec]
    exact .fail e
  | ok i =>
    rw [acceptWord_ok s hdec]
    exact exec_failsOrResponds i s

/-- Settles O9: a word fails in the state it was given or responds with a value (`acceptWord_failsOrResponds`). -/
theorem failingWordChangesNothing : Obligations.FailingWordChangesNothing :=
  fun w s _ _ hnext hfail => (acceptWord_failsOrResponds w s).eq_failed hnext hfail

end Sys2Proof.Proofs
end
